-- ==== Sys2Proof/Word.lean ====
section
/-! DEFINITION. The two word types of the block (00_scope.md R6, R9): an 8-bit byte and the 16-bit flash word,
which is also the width of a pointer (WORD_BYTES = PTR_BYTES = 2). -/

namespace Sys2Proof

/-- One byte of flash, of the page buffer, of the frame or of the EEPROM port (20_memory.md R80). -/
abbrev Byte := BitVec 8

/-- One flash word, one pointer, or one two-byte header field of a frame (00_scope.md R6; 30_encoding.md R131). -/
abbrev Word := BitVec 16

end Sys2Proof
end

