-- ==== Sys2Proof/Config.lean ====
section
/-! DEFINITION. The configuration record of 00_scope.md R6, the constants the spec derives from it, the three
example configurations of R7, and the one free function from which every `draw` of R12 is taken. -/

namespace Sys2Proof

/-- The implementation parameters marked OPEN in 00_scope.md R6. A record is data of the run (10_state.md R46):
`Machine.State` carries it unchanged, so every statement quantifies over it. -/
structure Config where
  /-- PAGE_SIZE, the erase and write granule in bytes. -/
  pageSize : Nat
  /-- FLASH_SIZE, the program memory in bytes. -/
  flashSize : Nat
  /-- BOOT_START, the bootloader's first byte address. -/
  bootStart : Nat
  /-- TIMER_W, the width of the free-running timer in bits. -/
  timerW : Nat
  /-- JUMP_BASE, subtracted from word 0 by the page-zero intercept. -/
  jumpBase : Word
  /-- BOOT_JUMP_WORD, the relative jump to the bootloader written at address 0. -/
  bootJumpWord : Word
  /-- BOOT_TIMEOUT, the blink cycles before the WAIT_SIGNAL timeout. -/
  bootTimeout : Nat
  /-- BLINK_TICKS, the ticks of one WAIT_SIGNAL blink cycle. -/
  blinkTicks : Nat
  /-- FAST_BLINK_TICKS, the ticks of one ERROR_HANG toggle. -/
  fastBlinkTicks : Nat
  /-- ERASED_BYTE, what a flash byte holds after its page was erased. -/
  erasedByte : Byte
  /-- MAX_ERASE, the longest busy time of an erase. -/
  maxErase : Nat
  /-- MAX_FILL, the longest busy time of a fill. -/
  maxFill : Nat
  /-- MAX_WRITE, the longest busy time of a commit. -/
  maxWrite : Nat
  deriving DecidableEq, Repr

/-- WORD_BYTES (00_scope.md R6, decision D8). -/
abbrev Config.wordBytes : Nat := 2

/-- PTR_BYTES (00_scope.md R6, decision D9). -/
abbrev Config.ptrBytes : Nat := 2

/-- SYNC_EDGES, the intervals measured in synchronisation (00_scope.md R6). -/
abbrev Config.syncEdges : Nat := 16

/-- SYNC_AVG, the last intervals that are averaged (00_scope.md R6). -/
abbrev Config.syncAvg : Nat := 8

/-- WAIT_EDGES, the level changes that confirm a signal (00_scope.md R6). -/
abbrev Config.waitEdges : Nat := 3

/-- The bytes of a frame before its payload: command, page index, length, checksum (30_encoding.md R130). -/
abbrev Config.headerBytes : Nat := 7

/-- FRAME_SIZE = PAGE_SIZE + 7 (00_scope.md R6). -/
def Config.frameSize (c : Config) : Nat := c.pageSize + Config.headerBytes

/-- FRAME_BITS = 8 * FRAME_SIZE (00_scope.md R6). -/
def Config.frameBits (c : Config) : Nat := 8 * c.frameSize

/-- FUNC_ADDR = BOOT_START - PTR_BYTES, the function-address slot (00_scope.md R6; 20_memory.md R81). -/
def Config.funcAddr (c : Config) : Nat := c.bootStart - Config.ptrBytes

/-- ACC_W = TIMER_W + 3, the width of the interval accumulator (00_scope.md R6, decision D3). -/
def Config.accW (c : Config) : Nat := c.timerW + 3

/-- PAGE_SIZE / WORD_BYTES, the words of one page (10_state.md R42). -/
def Config.pageWords (c : Config) : Nat := c.pageSize / Config.wordBytes

/-- EX64 of 00_scope.md R7. DESIGN CHOICE (log entry 3): R7 gives no FAST_BLINK_TICKS and no latency bounds, so
those four values are the model's own. -/
def Config.ex64 : Config where
  pageSize := 64
  flashSize := 0x2000
  bootStart := 0x1C00
  timerW := 8
  jumpBase := 0xBFFF#16
  bootJumpWord := 0xCDFF#16
  bootTimeout := 10
  blinkTicks := 100
  fastBlinkTicks := 25
  erasedByte := 0xFF#8
  maxErase := 4
  maxFill := 4
  maxWrite := 4

/-- EX4 of 00_scope.md R7. DESIGN CHOICE (log entry 3): the last four values as in `Config.ex64`. -/
def Config.ex4 : Config where
  pageSize := 4
  flashSize := 0x20
  bootStart := 0x10
  timerW := 8
  jumpBase := 0xBFFF#16
  bootJumpWord := 0xC007#16
  bootTimeout := 4
  blinkTicks := 8
  fastBlinkTicks := 2
  erasedByte := 0xFF#8
  maxErase := 4
  maxFill := 4
  maxWrite := 4

/-- EX4B of 00_scope.md R7: EX4 with the function-address slot in page 0. -/
def Config.ex4b : Config := { Config.ex4 with bootStart := 0x4, bootJumpWord := 0xC001#16 }

/-- The free values of the block: the `n`-th `draw` of 00_scope.md R12. It has no body, so a proof knows nothing
of it and a statement that mentions it holds whatever the hardware produces (log entry 5). -/
opaque Config.draw : Nat → Nat

end Sys2Proof
end

