-- ==== Sys2Proof/Syntax.lean ====
section
/-! DEFINITION. The instruction set: the frames of 30_encoding.md R130, one constructor per row of
spec/opcode_table.json. -/

namespace Sys2Proof

/-- The fields of a frame after its command byte (30_encoding.md R130, R131). Every command carries all of them. -/
structure Frame where
  /-- `page_index = le16(F[1], F[2])`, read by PROGRAM and EEPROM_WRITE. -/
  page : Word
  /-- `length = le16(F[3], F[4])`, read by EEPROM_WRITE only (41_dispatcher.md R223). -/
  length : Word
  /-- `checksum = le16(F[5], F[6])`, carried and never checked (41_dispatcher.md R223). -/
  checksum : Word
  /-- `F[7 .. PAGE_SIZE+6]`. -/
  payload : List Byte
  deriving DecidableEq, Repr

/-- One completed frame as the Dispatcher reads it: the command of 30_encoding.md R136 with the frame's fields. The
six constructors of the unrecognised codes carry the bits that their row of the opcode table leaves free. -/
inductive Instr where
  /-- Code 0 (41_dispatcher.md R211). -/
  | noCommand (f : Frame)
  /-- Code 1 (41_dispatcher.md R212). -/
  | test (f : Frame)
  /-- Code 2 (41_dispatcher.md R213). -/
  | program (f : Frame)
  /-- Code 3 (41_dispatcher.md R214). -/
  | run (f : Frame)
  /-- Code 4 (41_dispatcher.md R215). -/
  | eepromWrite (f : Frame)
  /-- Code 5 (41_dispatcher.md R216). -/
  | exit (f : Frame)
  /-- Row `0000011x`, codes 0x06 and 0x07 (41_dispatcher.md R217). -/
  | unrecognised06 (b : BitVec 1) (f : Frame)
  /-- Row `00001xxx`, codes 0x08 to 0x0F (41_dispatcher.md R217). -/
  | unrecognised08 (b : BitVec 3) (f : Frame)
  /-- Row `0001xxxx`, codes 0x10 to 0x1F (41_dispatcher.md R217). -/
  | unrecognised10 (b : BitVec 4) (f : Frame)
  /-- Row `001xxxxx`, codes 0x20 to 0x3F (41_dispatcher.md R217). -/
  | unrecognised20 (b : BitVec 5) (f : Frame)
  /-- Row `01xxxxxx`, codes 0x40 to 0x7F (41_dispatcher.md R217). -/
  | unrecognised40 (b : BitVec 6) (f : Frame)
  /-- Row `1xxxxxxx`, codes 0x80 to 0xFF (41_dispatcher.md R217). -/
  | unrecognised80 (b : BitVec 7) (f : Frame)
  deriving DecidableEq, Repr

/-- The fields of an instruction's frame. -/
def Instr.frame : Instr → Frame
  | .noCommand f => f
  | .test f => f
  | .program f => f
  | .run f => f
  | .eepromWrite f => f
  | .exit f => f
  | .unrecognised06 _ f => f
  | .unrecognised08 _ f => f
  | .unrecognised10 _ f => f
  | .unrecognised20 _ f => f
  | .unrecognised40 _ f => f
  | .unrecognised80 _ f => f

end Sys2Proof
end

