-- ==== Sys2Proof/WellFormed.lean ====
section
/-! DEFINITION. When a configuration is well formed (00_scope.md R6, R8) and when an instruction is (30_encoding.md
R130, R132). -/

namespace Sys2Proof

/-- Every constraint of the table of 00_scope.md R6. A model refuses any other configuration (R8, condition X8). -/
def Config.wf (c : Config) : Bool :=
  decide (Config.ptrBytes < c.pageSize ∧ c.pageSize % Config.wordBytes = 0 ∧
    0 < c.flashSize ∧ c.flashSize % c.pageSize = 0 ∧
    c.bootStart % c.pageSize = 0 ∧ c.pageSize ≤ c.bootStart ∧ c.bootStart ≤ c.flashSize ∧
    1 ≤ c.bootTimeout ∧ 1 ≤ c.blinkTicks ∧ 1 ≤ c.fastBlinkTicks ∧
    2 ≤ c.timerW ∧ 1 ≤ c.maxErase ∧ 1 ≤ c.maxWrite)

/-- A frame has one length only, FRAME_SIZE = PAGE_SIZE + 7 bytes (30_encoding.md R130, R132): its payload has
exactly PAGE_SIZE bytes. Every value of every other field is a frame (R137). -/
def Instr.wf (c : Config) (i : Instr) : Bool := i.frame.payload.length == c.pageSize

end Sys2Proof
end

