-- ==== Sys2Proof/Decode.lean ====
section
/-! DEFINITION. The byte order of 20_memory.md R90, the decoder from a frame's bytes to an instruction, and the
encoder back (30_encoding.md R130 to R137). -/

namespace Sys2Proof

/-- `le16(lo, hi) = hi * 256 + lo` (00_scope.md R9). -/
def le16 (lo hi : Byte) : Word := hi ++ lo

/-- The low byte `v[7:0]` of a word. -/
def loByte (v : Word) : Byte := v.extractLsb' 0 8

/-- The high byte `v[15:8]` of a word. -/
def hiByte (v : Word) : Byte := v.extractLsb' 8 8

/-- `le_bytes(v, 2)`, least significant byte first (00_scope.md R11). -/
def leBytes (v : Word) : List Byte := [loByte v, hiByte v]

/-- `le_value` of a list of PTR_BYTES bytes, the inverse of `leBytes` (00_scope.md R11). -/
def leValue (bs : List Byte) : Word := le16 (bs.getD 0 0#8) (bs.getD 1 0#8)

/-- Why a list of bytes is no frame. -/
inductive DecodeError where
  /-- The list does not have FRAME_SIZE bytes: the frame has one length only (30_encoding.md R132). -/
  | frameLength (got : Nat)
  deriving DecidableEq, Repr

/-- The command of 30_encoding.md R136: all 8 bits are decoded, and no other field takes part. -/
def decodeCommand (c : Byte) (f : Frame) : Instr :=
  if c = 0#8 then .noCommand f
  else if c = 1#8 then .test f
  else if c = 2#8 then .program f
  else if c = 3#8 then .run f
  else if c = 4#8 then .eepromWrite f
  else if c = 5#8 then .exit f
  else if c.extractLsb' 1 7 = 0b0000011#7 then .unrecognised06 (c.extractLsb' 0 1) f
  else if c.extractLsb' 3 5 = 0b00001#5 then .unrecognised08 (c.extractLsb' 0 3) f
  else if c.extractLsb' 4 4 = 0b0001#4 then .unrecognised10 (c.extractLsb' 0 4) f
  else if c.extractLsb' 5 3 = 0b001#3 then .unrecognised20 (c.extractLsb' 0 5) f
  else if c.extractLsb' 6 2 = 0b01#2 then .unrecognised40 (c.extractLsb' 0 6) f
  else .unrecognised80 (c.extractLsb' 0 7) f

/-- The decoder, total on any list of bytes: the fixed offsets of 30_encoding.md R130 with the fields of R131. It
refuses a list that does not have `pageSize + 7` bytes, and no frame of that length (R137). -/
def decode (pageSize : Nat) (bs : List Byte) : Except DecodeError Instr :=
  match bs with
  | c :: pl :: ph :: ll :: lh :: kl :: kh :: payload =>
    if payload.length = pageSize then
      .ok (decodeCommand c
        { page := le16 pl ph, length := le16 ll lh, checksum := le16 kl kh, payload := payload })
    else .error (.frameLength bs.length)
  | _ => .error (.frameLength bs.length)

/-- The command byte of an instruction: the code or the match bits of its row with the row's free bits
(30_encoding.md R136). -/
def commandByte : Instr → Byte
  | .noCommand _ => 0x00#8
  | .test _ => 0x01#8
  | .program _ => 0x02#8
  | .run _ => 0x03#8
  | .eepromWrite _ => 0x04#8
  | .exit _ => 0x05#8
  | .unrecognised06 b _ => 0b0000011#7 ++ b
  | .unrecognised08 b _ => 0b00001#5 ++ b
  | .unrecognised10 b _ => 0b0001#4 ++ b
  | .unrecognised20 b _ => 0b001#3 ++ b
  | .unrecognised40 b _ => 0b01#2 ++ b
  | .unrecognised80 b _ => 0b1#1 ++ b

/-- The header fields and the payload of a frame, at the offsets of 30_encoding.md R130. -/
def encodeFrame (f : Frame) : List Byte :=
  leBytes f.page ++ (leBytes f.length ++ (leBytes f.checksum ++ f.payload))

/-- The encoder: `FRAME(cmd, page, len, ck, payload)` of 30_encoding.md R145. -/
def encode (i : Instr) : List Byte := commandByte i :: encodeFrame i.frame

/-- The `n` bytes of a number, least significant first. -/
def bytesOfNat : Nat → Nat → List Byte
  | 0, _ => []
  | n + 1, w => BitVec.ofNat 8 w :: bytesOfNat n (w / 256)

/-- The bytes of the frame whose first `nbits` bits are `w`, bit 0 the least significant bit of `F[0]`, and whose
other bits are 0. -/
def tableFrame (pageSize nbits w : Nat) : List Byte :=
  bytesOfNat (pageSize + Config.headerBytes) (w % 2 ^ nbits)

/-- What the decoder reads from a frame whose bits are `w` under the configuration EX4, which `State.reset` holds. -/
def decodeTableWord (nbits w : Nat) : Option Instr :=
  (decode Config.ex4.pageSize (tableFrame Config.ex4.pageSize nbits w)).toOption

end Sys2Proof
end

