-- ==== Sys2Proof/Machine/State.lean ====
section
/-! DEFINITION. The state of the block as plain data (10_state.md R30 to R47), the reasons a step can stop, and the
machine right after reset (70_reset_and_hazards.md R380). -/

namespace Sys2Proof.Machine

/-- One byte array of the block as (address, byte) pairs in canonical form: addresses strictly rising, no entry equal
to what an unlisted address reads as. FLASH, the page buffer PB, the frame buffer F, the merge buffer M and the block
register `fp_blk` are each one (20_memory.md R80; 10_state.md R42). -/
abbrev Memory := List Host.Cell

/-- `boot_state` (10_state.md R35). -/
inductive BootState where
  | waitSignal
  | listening
  | errorHang
  | runApplication
  deriving DecidableEq, Repr

/-- `lst_phase`, the sub-state of LISTENING (10_state.md R35). -/
inductive LstPhase where
  | rx
  | dispatch
  | progWait
  | runWait
  | eeWrite
  deriving DecidableEq, Repr

/-- `dec_phase` (10_state.md R35). -/
inductive DecPhase where
  | idle
  | syncFirst
  | syncMeas
  | startSample
  | startEdge
  | dataEdge
  | dataSample
  deriving DecidableEq, Repr

/-- `fp_phase` (10_state.md R35). -/
inductive FpPhase where
  | idle
  | read
  | erase
  | eraseWait
  | fill
  | fillWait
  | commit
  | commitWait
  | rww
  | done
  deriving DecidableEq, Repr

/-- `fp_kind` (10_state.md R35). -/
inductive FpKind where
  | fullPage
  | block
  deriving DecidableEq, Repr

/-- `app_cause` (10_state.md R35). -/
inductive AppCause where
  | none
  | skip
  | timeout
  | run
  | eeprom
  deriving DecidableEq, Repr

/-- What the environment drives in one step (10_state.md R31, R32, R34; 70_reset_and_hazards.md R393). -/
structure Input where
  /-- `rst`, active high. -/
  rst : Bool
  /-- `skip_in`, read only in a reset step. -/
  skipIn : Bool
  /-- `pin_in`, the digital input level. -/
  pinIn : Bool
  /-- `fc_lat`, the flash controller's busy time, read only in a step that issues a flash operation. -/
  fcLat : Nat
  /-- The CPU's own write of its interrupt enable in this step, if it makes one (R34: the CPU owns the bit outside
  the critical section). In a reset step it is the value the CPU's reset gives the bit. -/
  cpuIe : Option Bool
  /-- The CPU takes an interrupt in this step (70_reset_and_hazards.md R385). -/
  cpuIrq : Bool
  deriving DecidableEq, Repr

/-- The environment's part of the state: the model's form of the run parameters of 10_state.md R46 (log entry 4). -/
structure Env where
  /-- The inputs sampled in the last step. -/
  inp : Input
  /-- The inputs of the steps to come, the next one first. When the list is empty, `inp` is held. -/
  inputs : List Input
  deriving DecidableEq, Repr

/-- The Boot Controller's registers (10_state.md R37). -/
structure Boot where
  /-- `boot_state`. -/
  bootState : BootState
  /-- `lst_phase`. -/
  lstPhase : LstPhase
  /-- `wait_ref`. -/
  waitRef : Bool
  /-- `wait_edges_left`. -/
  waitEdgesLeft : BitVec 2
  /-- `timeout_left`. -/
  timeoutLeft : Nat
  /-- `blink_cnt`. -/
  blinkCnt : Nat
  /-- `led`. -/
  led : Bool
  /-- `app_cause`. -/
  appCause : AppCause
  /-- `app_entry`. -/
  appEntry : Word
  deriving DecidableEq, Repr

/-- The Signal Decoder's registers (10_state.md R38, R39). A register whose width depends on the configuration is a
Nat that every write keeps inside its width. -/
structure Dec where
  /-- `tmr`, TIMER_W bits. -/
  tmr : Nat
  /-- `dec_phase`. -/
  phase : DecPhase
  /-- `dec_ref`. -/
  ref : Bool
  /-- `dec_n`. -/
  n : BitVec 5
  /-- `dec_acc`, ACC_W bits. -/
  acc : Nat
  /-- `dec_delay`, TIMER_W bits. -/
  delay : Nat
  /-- `dec_start_cnt`. -/
  startCnt : BitVec 16
  /-- `dec_bit_idx`, 0 to FRAME_BITS. -/
  bitIdx : Nat
  /-- `dec_ok`. -/
  ok : Bool
  deriving DecidableEq, Repr

/-- The EEPROM sequencing registers (10_state.md R41). -/
structure Ee where
  /-- `ee_base`, exact. -/
  base : Nat
  /-- `ee_n`. -/
  n : BitVec 16
  /-- `ee_i`. -/
  i : BitVec 16
  deriving DecidableEq, Repr

/-- The Flash Programmer's registers (10_state.md R42). -/
structure Fp where
  /-- `fp_phase`. -/
  phase : FpPhase
  /-- `fp_kind`. -/
  kind : FpKind
  /-- `fp_page`, exact. -/
  page : Nat
  /-- `fp_idx`. -/
  idx : Nat
  /-- `fp_saved_ie`. -/
  savedIe : Bool
  /-- `fp_blk_off`. -/
  blkOff : Nat
  /-- `fp_blk_len`. -/
  blkLen : Nat
  /-- `fp_blk`, PAGE_SIZE - 1 bytes. -/
  blk : Memory
  /-- `M`, PAGE_SIZE bytes. -/
  m : Memory
  deriving DecidableEq, Repr

/-- FLASH and the flash controller's state (10_state.md R44, R45). -/
structure Fc where
  /-- `FLASH`, FLASH_SIZE bytes. -/
  flash : Memory
  /-- `PB`, PAGE_SIZE bytes. -/
  pb : Memory
  /-- `fc_busy_left`. -/
  busyLeft : Nat
  /-- `rww_en`. -/
  rwwEn : Bool
  /-- The model's own record for 93_implementation_defined.md U7: the page erased since the last commit. -/
  erased : Option Nat
  /-- The model's own record for U7: the page-buffer offsets filled since that erase. -/
  filled : List Nat
  deriving DecidableEq, Repr

/-- The pulse outputs of the last step and the EEPROM port (10_state.md R33). -/
structure Out where
  /-- `ee_we`. -/
  eeWe : Bool
  /-- `ee_addr`, valid when `eeWe`. -/
  eeAddr : Nat
  /-- `ee_data`, valid when `eeWe`. -/
  eeData : Byte
  /-- `frame_ok`. -/
  frameOk : Bool
  deriving DecidableEq, Repr

/-- One byte write seen on the EEPROM port with the number of its step (70_reset_and_hazards.md R394). -/
structure EeWrite where
  step : Nat
  addr : Nat
  data : Byte
  deriving DecidableEq, Repr

/-- The whole state. INVENTORY.md lists each field with its rule and its reset value. -/
structure State where
  /-- The configuration record (00_scope.md R6): a parameter of the run that no step changes (log entry 1). -/
  cfg : Config
  env : Env
  boot : Boot
  dec : Dec
  /-- `F`, the frame buffer of FRAME_SIZE bytes (10_state.md R40). -/
  frame : Memory
  ee : Ee
  fp : Fp
  /-- `sev`, the SavedEntryVector (10_state.md R43). -/
  sev : Word
  /-- `sev_valid`. -/
  sevValid : Bool
  fc : Fc
  /-- `cpu_ie`, the CPU's interrupt enable (10_state.md R34). -/
  cpuIe : Bool
  out : Out
  /-- The model's own: the writes made on the EEPROM port, oldest first (70_reset_and_hazards.md R394). -/
  eeLog : List EeWrite
  /-- The model's own: the number of the last step, the reset step being 0 (95_test_vectors.md). -/
  stepNo : Nat
  /-- The model's own: how many draws of `Config.draw` have been taken (log entry 5). -/
  drawCtr : Nat
  deriving DecidableEq, Repr

/-- The operation named in the record of a FlashProtocolFault, with its operands (60_exceptions.md R340). -/
inductive FlashOp where
  /-- FC_READ(a, n). -/
  | read (a n : Nat)
  /-- FC_ERASE(p). -/
  | erase (p : Nat)
  /-- FC_FILL(off, w). -/
  | fill (off : Nat) (w : Word)
  /-- FC_COMMIT(p). -/
  | commit (p : Nat)
  /-- FC_RWW_EN. -/
  | rwwEn
  /-- FP_START_BLOCK at `a` of `n` bytes. -/
  | blockStart (a n : Nat)
  deriving DecidableEq, Repr

/-- The kinds of a FlashProtocolFault (60_exceptions.md R340). -/
inductive FaultKind where
  | busy
  | rww
  | align
  | range
  | blockRange
  deriving DecidableEq, Repr

/-- What stops the machine. -/
inductive Fault where
  /-- FlashProtocolFault, condition X1 (60_exceptions.md R340), raised by the five flash-controller operations
  (20_memory.md R84 to R89) and by FP_START_BLOCK (42_flash_programmer.md R251). Safe: the spec names this stop. -/
  | flashProtocol (kind : FaultKind) (op : FlashOp)
  deriving DecidableEq, Repr

/-- What the model gives no meaning to. -/
inductive Refusal where
  /-- Raised by an arm of `exec` whose instruction has no meaning yet. Safe. -/
  | notModelled (mnemonic : String)
  /-- Raised by `step` in a state whose configuration breaks a constraint of 00_scope.md R6 (R8, condition X8). Safe:
  the spec asks for this refusal. -/
  | illFormedConfiguration
  /-- Raised by FC_ERASE, FC_FILL and FC_COMMIT when `fc_lat` lies outside the range of 10_state.md R36: no
  well-formed environment drives it. Safe. -/
  | latencyOutOfRange (op : FlashOp) (lat : Nat)
  /-- Raised by `step` when the environment takes a CPU interrupt while `cpu_ie = 0` or from ERASE to RWW
  (70_reset_and_hazards.md R385, R393; 93_implementation_defined.md U4). Unsafe: the spec says that this assumption
  errs toward proving. -/
  | interruptWhileMasked
  /-- Raised by `step` when the CPU writes `cpu_ie` from ERASE to RWW (70_reset_and_hazards.md R393). Unsafe, as above. -/
  | interruptEnableTaken
  /-- Raised by FC_COMMIT over a page that is not erased or not filled (20_memory.md R88; 93_implementation_defined.md
  U7). Safe: the spec asks for this refusal. -/
  | commitOutOfProtocol (p : Nat)
  /-- Raised by `step` in DISPATCH if the frame buffer's bytes were no frame. No state raises it. Safe. -/
  | undecodableFrame (e : DecodeError)
  deriving DecidableEq, Repr

/-- The three outcomes of a step of this machine. -/
abbrev Result := Host.Outcome State Fault Refusal

/-- The inputs of a quiet environment: the pin low, no reset, a latency of one tick, a CPU that does nothing. -/
def Input.quiet : Input where
  rst := false
  skipIn := false
  pinIn := false
  fcLat := 1
  cpuIe := .none
  cpuIrq := false

/-- The machine at the end of a reset step with `skip_in = 0` and `pin = 0` (70_reset_and_hazards.md R380,
43_boot_controller.md R300) under EX4. DESIGN CHOICE, unsafe (log entries 1, 6 and 7): the configuration, and zero for
every register that R380 leaves unspecified. -/
def State.reset : State where
  cfg := Config.ex4
  env := { inp := Input.quiet, inputs := [] }
  boot :=
    { bootState := .waitSignal, lstPhase := .rx, waitRef := false, waitEdgesLeft := 3#2,
      timeoutLeft := Config.ex4.bootTimeout, blinkCnt := 0, led := false, appCause := .none, appEntry := 0#16 }
  dec :=
    { tmr := 0, phase := .idle, ref := false, n := 0#5, acc := 0, delay := 0, startCnt := 0#16, bitIdx := 0,
      ok := true }
  frame := []
  ee := { base := 0, n := 0#16, i := 0#16 }
  fp :=
    { phase := .idle, kind := .fullPage, page := 0, idx := 0, savedIe := false, blkOff := 0, blkLen := 0, blk := [],
      m := [] }
  sev := 0#16
  sevValid := false
  fc := { flash := [], pb := [], busyLeft := 0, rwwEn := true, erased := .none, filled := [] }
  cpuIe := false
  out := { eeWe := false, eeAddr := 0, eeData := 0#8, frameOk := false }
  eeLog := []
  stepNo := 0
  drawCtr := 0

end Sys2Proof.Machine
end

