-- ==== Sys2Proof/Machine/Ops.lean ====
section
/-! DEFINITION. The named operations the rules are written with: byte arrays, draws, the five flash-controller
operations (20_memory.md R84 to R89), the hand-off (43_boot_controller.md R306), the decoder start (40_decoder.md
R160), the end of a non-terminal dispatch (41_dispatcher.md R221), the two entries of the Flash Programmer
(42_flash_programmer.md R250, R251), and the fetch of a frame. The block takes no exception and returns from none
(60_exceptions.md R344): the hand-off is its only transfer of control. -/

namespace Sys2Proof.Machine

/-! ## Sequencing -/

/-- Go on with a next state; a fault or a refusal stays. -/
def andThen (r : Result) (k : State → Result) : Result :=
  match r with
  | .next s => k s
  | .fault e => .fault e
  | .refused e => .refused e

/-! ## Byte arrays -/

/-- What an unlisted address of a byte array reads as. DESIGN CHOICE (log entry 7). -/
def Memory.background : Byte := 0#8

/-- The canonical form: addresses strictly rising and no entry equal to the background. -/
abbrev Memory.wf (m : Memory) : Prop :=
  m.Pairwise (fun x y => x.1 < y.1) ∧ ∀ c ∈ m, c.2 ≠ Memory.background

/-- The byte at an address. -/
def Memory.read (m : Memory) (a : Nat) : Byte :=
  match m with
  | [] => Memory.background
  | c :: t => if c.1 = a then c.2 else Memory.read t a

/-- The array with nothing listed at an address. -/
def Memory.remove (m : Memory) (a : Nat) : Memory := m.filter (fun c => decide (c.1 ≠ a))

/-- The array with one more entry, in its place by address. -/
def Memory.insert (m : Memory) (a : Nat) (v : Byte) : Memory :=
  match m with
  | [] => [(a, v)]
  | c :: t => if a < c.1 then (a, v) :: c :: t else c :: Memory.insert t a v

/-- Write one byte, in canonical form. -/
def Memory.write (m : Memory) (a : Nat) (v : Byte) : Memory :=
  if v = Memory.background then Memory.remove m a else Memory.insert (Memory.remove m a) a v

/-- The `n` bytes from address `a` on: `MemRead` of 00_scope.md R11. -/
def Memory.readList (m : Memory) (a : Nat) : Nat → List Byte
  | 0 => []
  | n + 1 => m.read a :: Memory.readList m (a + 1) n

/-- Write a list of bytes from address `a` on. -/
def Memory.writeList (m : Memory) (a : Nat) : List Byte → Memory
  | [] => m
  | b :: bs => Memory.writeList (m.write a b) (a + 1) bs

/-! ## Draws (00_scope.md R12) -/

/-- One byte of `draw(0..255)`. -/
def drawByte (k : Nat) : Byte := BitVec.ofNat 8 (Config.draw k)

/-- One bit drawn. -/
def drawBit (k : Nat) : Bool := Config.draw k % 2 == 1

/-- `n` bytes drawn, the `k`-th draw of the run first. -/
def drawBytes (k : Nat) : Nat → List Byte
  | 0 => []
  | n + 1 => drawByte k :: drawBytes (k + 1) n

/-! ## The flash controller -/

/-- The controller is busy in this step (10_state.md R45), the step's decrement already made. -/
def fcBusy (s : State) : Bool := decide (0 < s.fc.busyLeft)

/-- FC_READ(a, n) (20_memory.md R85): the flash bytes, or why they may not be read. DESIGN CHOICE (log entry 10): where
two causes hold, the fault names the first of BUSY, RWW, ALIGN, RANGE. -/
def fcRead (a n : Nat) (s : State) : Except Fault (List Byte) :=
  if fcBusy s then .error (.flashProtocol .busy (.read a n))
  else if s.fc.rwwEn = false then .error (.flashProtocol .rww (.read a n))
  else if s.cfg.flashSize < a + n then .error (.flashProtocol .range (.read a n))
  else .ok (s.fc.flash.readList a n)

/-- FC_ERASE(p) (20_memory.md R86). -/
def fcErase (p : Nat) (s : State) : Result :=
  let lat := s.env.inp.fcLat
  if fcBusy s then .fault (.flashProtocol .busy (.erase p))
  else if p % s.cfg.pageSize ≠ 0 then .fault (.flashProtocol .align (.erase p))
  else if s.cfg.flashSize ≤ p then .fault (.flashProtocol .range (.erase p))
  else if lat < 1 ∨ s.cfg.maxErase < lat then .refused (.latencyOutOfRange (.erase p) lat)
  else .next { s with
    fc.flash := s.fc.flash.writeList p (List.replicate s.cfg.pageSize s.cfg.erasedByte)
    fc.rwwEn := false
    fc.busyLeft := lat
    fc.erased := some p
    fc.filled := [] }

/-- FC_FILL(off, w) (20_memory.md R87): the low byte at the even offset (R90). -/
def fcFill (off : Nat) (w : Word) (s : State) : Result :=
  let lat := s.env.inp.fcLat
  if fcBusy s then .fault (.flashProtocol .busy (.fill off w))
  else if off % Config.wordBytes ≠ 0 then .fault (.flashProtocol .align (.fill off w))
  else if s.cfg.pageSize ≤ off then .fault (.flashProtocol .range (.fill off w))
  else if s.cfg.maxFill < lat then .refused (.latencyOutOfRange (.fill off w) lat)
  else .next { s with
    fc.pb := s.fc.pb.writeList off (leBytes w)
    fc.busyLeft := lat
    fc.filled := off :: s.fc.filled }

/-- Every word of the page buffer was filled since the last erase (93_implementation_defined.md U7). -/
def pageFilled (s : State) : Bool :=
  (List.range s.cfg.pageWords).all (fun k => s.fc.filled.contains (Config.wordBytes * k))

/-- FC_COMMIT(p) (20_memory.md R88): PB into the page, then PB holds any bytes. A commit over a page that is not
erased or not filled is refused (93_implementation_defined.md U7). -/
def fcCommit (p : Nat) (s : State) : Result :=
  let lat := s.env.inp.fcLat
  if fcBusy s then .fault (.flashProtocol .busy (.commit p))
  else if p % s.cfg.pageSize ≠ 0 then .fault (.flashProtocol .align (.commit p))
  else if s.cfg.flashSize ≤ p then .fault (.flashProtocol .range (.commit p))
  else if s.fc.erased ≠ some p ∨ pageFilled s = false then .refused (.commitOutOfProtocol p)
  else if lat < 1 ∨ s.cfg.maxWrite < lat then .refused (.latencyOutOfRange (.commit p) lat)
  else .next { s with
    fc.flash := s.fc.flash.writeList p (s.fc.pb.readList 0 s.cfg.pageSize)
    fc.pb := s.fc.pb.writeList 0 (drawBytes s.drawCtr s.cfg.pageSize)
    fc.rwwEn := false
    fc.busyLeft := lat
    fc.erased := .none
    fc.filled := []
    drawCtr := s.drawCtr + s.cfg.pageSize }

/-- FC_RWW_EN (20_memory.md R89). -/
def fcRwwEn (s : State) : Result :=
  if fcBusy s then .fault (.flashProtocol .busy .rwwEn)
  else .next { s with fc.rwwEn := true }

/-! ## Hand-off, decoder start, end of a dispatch -/

/-- `handoff(cause)` (43_boot_controller.md R306): the function-address slot is latched as the entry. -/
def handoff (cause : AppCause) (s : State) : Result :=
  match fcRead s.cfg.funcAddr Config.ptrBytes s with
  | .error e => .fault e
  | .ok bs => .next { s with
      boot.bootState := .runApplication
      boot.appCause := cause
      boot.appEntry := leValue bs
      dec.phase := .idle
      fp.phase := .idle }

/-- DEC_START (40_decoder.md R160). `tmr`, `dec_delay` and `F` are unchanged. -/
def decStart (s : State) : State :=
  { s with
    dec.ref := s.env.inp.pinIn
    dec.n := 0#5
    dec.acc := 0
    dec.startCnt := 0#16
    dec.bitIdx := 0
    dec.phase := .syncFirst }

/-- The clearing of the command byte, `F[0] <- 0` (41_dispatcher.md R219 to R221). -/
def clearCommand (s : State) : State := { s with frame := s.frame.write 0 0#8 }

/-- DISPATCH_END for a non-terminal dispatch (41_dispatcher.md R221). -/
def dispatchEnd (s : State) : State :=
  let s := clearCommand s
  decStart { s with boot.lstPhase := .rx }

/-! ## Entries of the Flash Programmer -/

/-- FP_START_FULL(addr) (42_flash_programmer.md R250). The payload stays in `F`. -/
def fpStartFull (addr : Nat) (s : State) : State :=
  { s with fp.kind := .fullPage, fp.page := addr, fp.phase := .erase }

/-- FP_START_BLOCK(a, bytes) (42_flash_programmer.md R251). -/
def fpStartBlock (a : Nat) (bytes : List Byte) (s : State) : Result :=
  let off := a % s.cfg.pageSize
  let n := bytes.length
  if n < 1 ∨ s.cfg.pageSize ≤ n ∨ s.cfg.pageSize < off + n ∨ s.cfg.flashSize < a + n then
    .fault (.flashProtocol .blockRange (.blockStart a n))
  else .next { s with
    fp.kind := .block
    fp.page := a - off
    fp.blkOff := off
    fp.blkLen := n
    fp.blk := s.fp.blk.writeList 0 bytes
    fp.phase := .read }

/-! ## Fetching a frame -/

/-- The FRAME_SIZE bytes of the frame buffer. -/
def frameBytes (s : State) : List Byte := s.frame.readList 0 s.cfg.frameSize

/-- DISPATCH's reading of the completed frame (41_dispatcher.md R210). -/
def fetch (s : State) : Except DecodeError Instr := decode s.cfg.pageSize (frameBytes s)

/-- The step's next inputs without a reset and without a CPU interrupt. -/
def clearNextReset (e : Env) : Env :=
  match e.inputs with
  | [] => { e with inp := { e.inp with rst := false, cpuIrq := false } }
  | i :: rest => { e with inputs := { i with rst := false, cpuIrq := false } :: rest }

/-- The state whose next step is the DISPATCH of a frame: the bytes stand in the frame buffer, the controller is in
LISTENING/DISPATCH with the decoder and the programmer idle, as 40_decoder.md R169 leaves them, and the next step is
no reset (log entry 8). -/
def placeFrame (s : State) (bytes : List Byte) : State :=
  { s with
    frame := s.frame.writeList 0 bytes
    boot.bootState := .listening
    boot.lstPhase := .dispatch
    dec.phase := .idle
    fp.phase := .idle
    env := clearNextReset s.env }

end Sys2Proof.Machine
end

