-- ==== Sys2Proof/Machine/Operands.lean ====
section
/-! DEFINITION. The operands the rules compute: byte addresses from a page index (41_dispatcher.md R222), the EEPROM
count (R215), the words of a page (42_flash_programmer.md R254), the jump word (30_encoding.md R141) and the sample
delay (40_decoder.md R164). -/

namespace Sys2Proof.Machine

/-- `PAGE_SIZE * page_index`, the exact product (41_dispatcher.md R222). -/
def pageAddr (c : Config) (index : Word) : Nat := c.pageSize * index.toNat

/-- `min(length, PAGE_SIZE)`, the bytes EEPROM_WRITE writes (41_dispatcher.md R215). -/
def eeCount (c : Config) (length : Word) : BitVec 16 := BitVec.ofNat 16 (min length.toNat c.pageSize)

/-- Byte `i` of the frame's payload, `F[7 + i]` (30_encoding.md R130). -/
def payloadByte (s : State) (i : Nat) : Byte := s.frame.read (Config.headerBytes + i)

/-- `src(k)`, the word of index `k` that the programmer fills (42_flash_programmer.md R254). -/
def srcWord (s : State) (k : Nat) : Word :=
  match s.fp.kind with
  | .fullPage => le16 (payloadByte s (2 * k)) (payloadByte s (2 * k + 1))
  | .block => le16 (s.fp.m.read (2 * k)) (s.fp.m.read (2 * k + 1))

/-- `entry = (w - JUMP_BASE) mod 2^16` (30_encoding.md R141). -/
def jumpTarget (c : Config) (w : Word) : Word := w - c.jumpBase

/-- The sample delay, the source's `time * 3 / 4 / 8` (40_decoder.md R164). -/
def sampleDelay (acc : Nat) : Nat := 3 * acc / 4 / 8

end Sys2Proof.Machine
end

