-- ==== Sys2Proof/Machine/Flags.lean ====
section
/-! DEFINITION. The block has no condition codes: its only flags are the outputs of 10_state.md R33 (R47). Here stand
the LED, the codes of the enumerated registers (R35), and every output port as a function of the state. -/

namespace Sys2Proof.Machine

/-- `led <- not led`. -/
def toggleLed (s : State) : State := { s with boot.led := !s.boot.led }

/-- The code of `boot_state` (10_state.md R35). -/
def bootStateCode : BootState → BitVec 2
  | .waitSignal => 0#2
  | .listening => 1#2
  | .errorHang => 2#2
  | .runApplication => 3#2

/-- The code of `lst_phase` (10_state.md R35). -/
def lstPhaseCode : LstPhase → BitVec 3
  | .rx => 0#3
  | .dispatch => 1#3
  | .progWait => 2#3
  | .runWait => 3#3
  | .eeWrite => 4#3

/-- The code of `dec_phase` (10_state.md R35). -/
def decPhaseCode : DecPhase → BitVec 3
  | .idle => 0#3
  | .syncFirst => 1#3
  | .syncMeas => 2#3
  | .startSample => 3#3
  | .startEdge => 4#3
  | .dataEdge => 5#3
  | .dataSample => 6#3

/-- The code of `fp_phase` (10_state.md R35). -/
def fpPhaseCode : FpPhase → BitVec 4
  | .idle => 0#4
  | .read => 1#4
  | .erase => 2#4
  | .eraseWait => 3#4
  | .fill => 4#4
  | .fillWait => 5#4
  | .commit => 6#4
  | .commitWait => 7#4
  | .rww => 8#4
  | .done => 9#4

/-- The code of `fp_kind` (10_state.md R35). -/
def fpKindCode : FpKind → BitVec 1
  | .fullPage => 0#1
  | .block => 1#1

/-- The code of `app_cause` (10_state.md R35). -/
def appCauseCode : AppCause → BitVec 3
  | .none => 0#3
  | .skip => 1#3
  | .timeout => 2#3
  | .run => 3#3
  | .eeprom => 4#3

/-- The output ports of 10_state.md R33. -/
structure Ports where
  led : Bool
  eeWe : Bool
  eeAddr : Nat
  eeData : Byte
  appStart : Bool
  appEntry : Word
  appCause : BitVec 3
  errHang : Bool
  frameOk : Bool
  bootState : BitVec 2
  lstPhase : BitVec 3
  decPhase : BitVec 3
  fpPhase : BitVec 4
  deriving DecidableEq, Repr

/-- What the ports show at the end of a step (10_state.md R33). -/
def ports (s : State) : Ports where
  led := s.boot.led
  eeWe := s.out.eeWe
  eeAddr := s.out.eeAddr
  eeData := s.out.eeData
  appStart := s.boot.bootState == .runApplication
  appEntry := s.boot.appEntry
  appCause := appCauseCode s.boot.appCause
  errHang := s.boot.bootState == .errorHang
  frameOk := s.out.frameOk
  bootState := bootStateCode s.boot.bootState
  lstPhase := lstPhaseCode s.boot.lstPhase
  decPhase := decPhaseCode s.dec.phase
  fpPhase := fpPhaseCode s.fp.phase

end Sys2Proof.Machine
end

