-- ==== Sys2Proof/Machine/Environment.lean ====
section
/-! DEFINITION. The front of every step: sampling the inputs (10_state.md R31, R32), the duties of the environment
(70_reset_and_hazards.md R393), the timer and the flash controller's countdown (10_state.md R38, R45). -/

namespace Sys2Proof.Machine

/-- Sample the inputs of this step. When none are listed any more, the last ones are held (log entry 4). -/
def sampleInputs (s : State) : State :=
  match s.env.inputs with
  | [] => s
  | i :: rest => { s with env := { inp := i, inputs := rest } }

/-- The phases from ERASE to RWW, in which the CPU leaves `cpu_ie` and flash alone and takes no interrupt
(70_reset_and_hazards.md R393). -/
def inCriticalSpan : FpPhase → Bool
  | .erase | .eraseWait | .fill | .fillWait | .commit | .commitWait | .rww => true
  | .idle | .read | .done => false

/-- What makes the step of a state with sampled inputs meaningless: a configuration that is not well formed
(00_scope.md R8), or an environment that breaks its duties (70_reset_and_hazards.md R385, R393). A reset step
overrides everything (60_exceptions.md R346). DESIGN CHOICE, unsafe (log entry 9): an interrupt is judged by the
`cpu_ie` of the start of the step, before a write of it by the CPU in the same step; the spec gives the CPU no order
inside a step (60_exceptions.md R345). -/
def stepRefusal (s : State) : Option Refusal :=
  if s.cfg.wf = false then some .illFormedConfiguration
  else if s.env.inp.rst then none
  else if s.env.inp.cpuIrq && (!s.cpuIe || inCriticalSpan s.fp.phase) then some .interruptWhileMasked
  else if s.env.inp.cpuIe.isSome && inCriticalSpan s.fp.phase then some .interruptEnableTaken
  else none

/-- What happens first in every step (10_state.md R38, R45; decision D1): the timer increments, the busy time counts
down, the pulse outputs fall, and a CPU that writes its interrupt enable does so (DESIGN CHOICE, log entry 9).
`ee_addr` and `ee_data` hold (DESIGN CHOICE, log entry 16). -/
def tick (s : State) : State :=
  { s with
    dec.tmr := (s.dec.tmr + 1) % 2 ^ s.cfg.timerW
    fc.busyLeft := s.fc.busyLeft - 1
    out.eeWe := false
    out.frameOk := false
    cpuIe := s.env.inp.cpuIe.getD s.cpuIe
    stepNo := s.stepNo + 1 }

end Sys2Proof.Machine
end

