-- ==== Sys2Proof/Machine/Decoder.lean ====
section
/-! DEFINITION. The Signal Decoder: one definition per phase (40_decoder.md R161 to R169). It acts in LISTENING/RX,
after the step's `tick`. -/

namespace Sys2Proof.Machine

/-- The pin differs from the reference level: an edge in an edge-waiting phase (40_decoder.md R171). -/
def pinChanged (s : State) : Bool := s.env.inp.pinIn != s.dec.ref

/-- `dec_ref <- pin`. -/
def captureRef (s : State) : State := { s with dec.ref := s.env.inp.pinIn }

/-- SYNC_FIRST (40_decoder.md R162). -/
def decSyncFirst (s : State) : State :=
  if pinChanged s then
    let s := captureRef s
    { s with dec.tmr := 0, dec.n := 0#5, dec.acc := 0, dec.phase := .syncMeas }
  else s

/-- The accumulator after an interval of `t` ticks: only the last 8 of the 16 are summed (40_decoder.md R163). -/
def nextAcc (s : State) (t : Nat) : Nat :=
  if Config.syncAvg ≤ s.dec.n.toNat then (s.dec.acc + t) % 2 ^ s.cfg.accW else s.dec.acc

/-- SYNC_MEAS (40_decoder.md R163). -/
def decSyncMeas (s : State) : State :=
  if pinChanged s then
    let acc := nextAcc s s.dec.tmr
    let n := s.dec.n + 1#5
    let s := captureRef s
    let s := { s with dec.tmr := 0, dec.acc := acc, dec.n := n }
    if n = BitVec.ofNat 5 Config.syncEdges then
      { s with dec.delay := sampleDelay acc, dec.startCnt := 0#16, dec.phase := .startSample }
    else s
  else s

/-- START_SAMPLE (40_decoder.md R165). -/
def decStartSample (s : State) : State :=
  if s.dec.delay ≤ s.dec.tmr then
    if pinChanged s then
      let s := captureRef s
      { s with dec.bitIdx := 0, dec.phase := .dataEdge }
    else { s with dec.phase := .startEdge }
  else s

/-- START_EDGE (40_decoder.md R166). -/
def decStartEdge (s : State) : State :=
  if pinChanged s then
    let s := captureRef s
    { s with dec.tmr := 0, dec.startCnt := s.dec.startCnt + 1#16, dec.phase := .startSample }
  else s

/-- DATA_EDGE (40_decoder.md R167). -/
def decDataEdge (s : State) : State :=
  if pinChanged s then
    let s := captureRef s
    { s with dec.tmr := 0, dec.phase := .dataSample }
  else s

/-- A byte with bit `k` assigned. -/
def setBit (v : Byte) (k : Nat) (b : Bool) : Byte :=
  if b then v ||| (1#8 <<< k) else v &&& ~~~(1#8 <<< k)

/-- `F[floor(i / 8)][7 - (i mod 8)] <- b`: the bit is assigned, never ORed (40_decoder.md R168). -/
def storeBit (s : State) (i : Nat) (b : Bool) : State :=
  { s with frame := s.frame.write (i / 8) (setBit (s.frame.read (i / 8)) (7 - i % 8) b) }

/-- Frame completion (40_decoder.md R169) with the Boot Controller's test of `dec_ok` (43_boot_controller.md R308). -/
def frameComplete (s : State) : State :=
  let s := { s with dec.phase := .idle, out.frameOk := true }
  if s.dec.ok then { s with dec.ok := true, boot.lstPhase := .dispatch }
  else { s with boot.bootState := .errorHang, boot.blinkCnt := 0 }

/-- DATA_SAMPLE (40_decoder.md R168). -/
def decDataSample (s : State) : State :=
  if s.dec.delay ≤ s.dec.tmr then
    let i := s.dec.bitIdx
    let s := storeBit s i (pinChanged s)
    let s := captureRef s
    let s := { s with dec.bitIdx := i + 1 }
    if i + 1 = s.cfg.frameBits then frameComplete s else { s with dec.phase := .dataEdge }
  else s

/-- The decoder's step: the rule of the phase it holds at the start of the step (40_decoder.md R159, R161). -/
def decoderStep (s : State) : State :=
  match s.dec.phase with
  | .idle => s
  | .syncFirst => decSyncFirst s
  | .syncMeas => decSyncMeas s
  | .startSample => decStartSample s
  | .startEdge => decStartEdge s
  | .dataEdge => decDataEdge s
  | .dataSample => decDataSample s

end Sys2Proof.Machine
end

