-- ==== Sys2Proof/Machine/FlashProgrammer.lean ====
section
/-! DEFINITION. The Flash Programmer: one definition per phase (42_flash_programmer.md R252 to R264). It acts
alongside PROG_WAIT and RUN_WAIT (60_exceptions.md R346). -/

namespace Sys2Proof.Machine

/-- READ and the merge (42_flash_programmer.md R263, R264). -/
def fpRead (s : State) : Result :=
  match fcRead s.fp.page s.cfg.pageSize s with
  | .error e => .fault e
  | .ok bs => .next { s with
      fp.m := (s.fp.m.writeList 0 bs).writeList s.fp.blkOff (s.fp.blk.readList 0 s.fp.blkLen)
      fp.phase := .erase }

/-- ERASE: enter the critical section and erase the page (42_flash_programmer.md R252). -/
def fpErase (s : State) : Result :=
  andThen (fcErase s.fp.page s) fun t =>
    .next { t with fp.savedIe := s.cpuIe, cpuIe := false, fp.phase := .eraseWait }

/-- ERASE_WAIT (42_flash_programmer.md R253). -/
def fpEraseWait (s : State) : Result :=
  if fcBusy s then .next s else .next { s with fp.idx := 0, fp.phase := .fill }

/-- The one case of the page-zero intercept (42_flash_programmer.md R255, R256). -/
def interceptApplies (s : State) : Bool :=
  s.fp.kind == .fullPage && s.fp.page == 0 && s.fp.idx == 0

/-- The word that FILL loads: the source word, or the bootloader jump where the intercept applies
(42_flash_programmer.md R255, R256). -/
def fillWord (s : State) : Word :=
  if interceptApplies s then s.cfg.bootJumpWord else srcWord s s.fp.idx

/-- The page-zero intercept's writes of `sev` and `sev_valid` (42_flash_programmer.md R256). -/
def captureVector (s : State) : State :=
  if interceptApplies s then { s with sev := jumpTarget s.cfg (srcWord s 0), sevValid := true } else s

/-- FILL (42_flash_programmer.md R255). -/
def fpFill (s : State) : Result :=
  andThen (fcFill (Config.wordBytes * s.fp.idx) (fillWord s) (captureVector s)) fun t =>
    .next { t with fp.phase := .fillWait }

/-- FILL_WAIT (42_flash_programmer.md R257). -/
def fpFillWait (s : State) : Result :=
  if fcBusy s then .next s
  else if s.fp.idx + 1 = s.cfg.pageWords then .next { s with fp.phase := .commit }
  else .next { s with fp.idx := s.fp.idx + 1, fp.phase := .fill }

/-- COMMIT (42_flash_programmer.md R258). -/
def fpCommit (s : State) : Result :=
  andThen (fcCommit s.fp.page s) fun t => .next { t with fp.phase := .commitWait }

/-- COMMIT_WAIT (42_flash_programmer.md R259). -/
def fpCommitWait (s : State) : Result :=
  if fcBusy s then .next s else .next { s with fp.phase := .rww }

/-- RWW: enable flash reads and leave the critical section (42_flash_programmer.md R260, R262). -/
def fpRww (s : State) : Result :=
  andThen (fcRwwEn s) fun t => .next { t with cpuIe := t.fp.savedIe, fp.phase := .done }

/-- The programmer's step: the rule of the phase it holds; IDLE and DONE write nothing (42_flash_programmer.md
R261). -/
def programmerStep (s : State) : Result :=
  match s.fp.phase with
  | .idle => .next s
  | .read => fpRead s
  | .erase => fpErase s
  | .eraseWait => fpEraseWait s
  | .fill => fpFill s
  | .fillWait => fpFillWait s
  | .commit => fpCommit s
  | .commitWait => fpCommitWait s
  | .rww => fpRww s
  | .done => .next s

end Sys2Proof.Machine
end

