-- ==== Sys2Proof/Machine/Commands.lean ====
section
/-! DEFINITION. The commands (41_dispatcher.md R211 to R217), one definition per row of the opcode table, and the
completion phases PROG_WAIT, RUN_WAIT and EE_WRITE (R218 to R220). -/

namespace Sys2Proof.Machine

/-- NO_COMMAND (41_dispatcher.md R211). -/
def execNoCommand (s : State) : Result := .next (dispatchEnd s)

/-- TEST (41_dispatcher.md R212). -/
def execTest (s : State) : Result := .next (dispatchEnd s)

/-- PROGRAM (41_dispatcher.md R213). The payload is not copied: the programmer reads it in place from `F`. -/
def execProgram (f : Frame) (s : State) : Result :=
  let addr := pageAddr s.cfg f.page
  if addr < s.cfg.bootStart then .next { fpStartFull addr s with boot.lstPhase := .progWait }
  else .next (dispatchEnd s)

/-- RUN (41_dispatcher.md R214) through the vector restore (42_flash_programmer.md R265). -/
def execRun (s : State) : Result :=
  andThen (fpStartBlock s.cfg.funcAddr (leBytes s.sev) s) fun t => .next { t with boot.lstPhase := .runWait }

/-- EEPROM_WRITE (41_dispatcher.md R215). The payload is read in place by EE_WRITE. -/
def execEepromWrite (f : Frame) (s : State) : Result :=
  .next { s with
    ee.base := pageAddr s.cfg f.page
    ee.n := eeCount s.cfg f.length
    ee.i := 0#16
    boot.lstPhase := .eeWrite }

/-- EXIT, disabled in this build (41_dispatcher.md R216). -/
def execExit (s : State) : Result := .next (dispatchEnd s)

/-- The unrecognised codes 0x06 and 0x07 (41_dispatcher.md R217). -/
def execUnrecognised06 (s : State) : Result := .next (dispatchEnd s)

/-- The unrecognised codes 0x08 to 0x0F (41_dispatcher.md R217). -/
def execUnrecognised08 (s : State) : Result := .next (dispatchEnd s)

/-- The unrecognised codes 0x10 to 0x1F (41_dispatcher.md R217). -/
def execUnrecognised10 (s : State) : Result := .next (dispatchEnd s)

/-- The unrecognised codes 0x20 to 0x3F (41_dispatcher.md R217). -/
def execUnrecognised20 (s : State) : Result := .next (dispatchEnd s)

/-- The unrecognised codes 0x40 to 0x7F (41_dispatcher.md R217). -/
def execUnrecognised40 (s : State) : Result := .next (dispatchEnd s)

/-- The unrecognised codes 0x80 to 0xFF (41_dispatcher.md R217). -/
def execUnrecognised80 (s : State) : Result := .next (dispatchEnd s)

/-- PROG_WAIT (41_dispatcher.md R218) with the programmer alongside. -/
def progWaitStep (s : State) : Result :=
  if s.fp.phase = .done then .next (dispatchEnd (toggleLed { s with fp.phase := .idle }))
  else programmerStep s

/-- RUN_WAIT (41_dispatcher.md R219) with the programmer alongside. -/
def runWaitStep (s : State) : Result :=
  if s.fp.phase = .done then handoff .run (clearCommand { s with fp.phase := .idle })
  else programmerStep s

/-- EE_WRITE (41_dispatcher.md R220): one byte per step on the EEPROM port, then the hand-off. -/
def eeWriteStep (s : State) : Result :=
  if s.ee.i < s.ee.n then
    let addr := s.ee.base + s.ee.i.toNat
    let data := payloadByte s s.ee.i.toNat
    .next { s with
      out.eeWe := true
      out.eeAddr := addr
      out.eeData := data
      eeLog := s.eeLog ++ [{ step := s.stepNo, addr := addr, data := data }]
      ee.i := s.ee.i + 1#16 }
  else handoff .eeprom (clearCommand s)

end Sys2Proof.Machine
end

