-- ==== Sys2Proof/Machine/Boot.lean ====
section
/-! DEFINITION. The Boot Controller's own steps: the reset step (70_reset_and_hazards.md R380, 43_boot_controller.md
R300), WAIT_SIGNAL (R301 to R304) and ERROR_HANG (R309). -/

namespace Sys2Proof.Machine

/-- How many draws the registers of `resetRegisters` take before its byte arrays. -/
def resetScalarDraws : Nat := 19

/-- FLASH after a reset step: unchanged, but for the page of an interrupted sequence, which holds any bytes
(20_memory.md R92, condition X9). `k` numbers the first draw. -/
def flashAfterReset (s : State) (k : Nat) : Memory :=
  if s.fp.phase = .idle ∨ s.fp.phase = .done then s.fc.flash
  else s.fc.flash.writeList s.fp.page (drawBytes k s.cfg.pageSize)

/-- The reset table of 70_reset_and_hazards.md R380, but for what `skip_in` decides: the values it gives, and a draw
inside the register's range for each register it leaves unspecified. `cpu_ie` is the CPU's own: the value the input
gives it, else any (93_implementation_defined.md U21). -/
def resetRegisters (s : State) : State :=
  let c := s.cfg
  let d := fun i => Config.draw (s.drawCtr + i)
  let k := s.drawCtr + resetScalarDraws
  { s with
    boot :=
      { bootState := .waitSignal, lstPhase := .rx, waitRef := s.env.inp.pinIn,
        waitEdgesLeft := BitVec.ofNat 2 Config.waitEdges, timeoutLeft := c.bootTimeout, blinkCnt := 0, led := false,
        appCause := .none, appEntry := BitVec.ofNat 16 (d 0) }
    dec :=
      { tmr := d 1 % 2 ^ c.timerW, phase := .idle, ref := drawBit (s.drawCtr + 2), n := BitVec.ofNat 5 (d 3),
        acc := d 4 % 2 ^ c.accW, delay := d 5 % 2 ^ c.timerW, startCnt := BitVec.ofNat 16 (d 6),
        bitIdx := d 7 % (c.frameBits + 1), ok := true }
    frame := Memory.writeList [] 0 (drawBytes k c.frameSize)
    ee := { base := d 8 % (c.pageSize * 2 ^ 16), n := BitVec.ofNat 16 (d 9), i := BitVec.ofNat 16 (d 10) }
    fp :=
      { phase := .idle, kind := if drawBit (s.drawCtr + 11) then .block else .fullPage, page := d 12 % c.flashSize,
        idx := d 13 % (c.pageWords + 1), savedIe := drawBit (s.drawCtr + 14), blkOff := d 15 % c.pageSize,
        blkLen := d 16 % c.pageSize,
        blk := Memory.writeList [] 0 (drawBytes (k + c.frameSize) (c.pageSize - 1)),
        m := Memory.writeList [] 0 (drawBytes (k + c.frameSize + c.pageSize) c.pageSize) }
    sev := BitVec.ofNat 16 (d 17)
    sevValid := false
    fc :=
      { flash := flashAfterReset s (k + c.frameSize + 3 * c.pageSize),
        pb := Memory.writeList [] 0 (drawBytes (k + c.frameSize + 2 * c.pageSize) c.pageSize),
        busyLeft := 0, rwwEn := true, erased := .none, filled := [] }
    cpuIe := s.env.inp.cpuIe.getD (drawBit (s.drawCtr + 18))
    out := { s.out with eeWe := false, frameOk := false }
    drawCtr := k + c.frameSize + 4 * c.pageSize }

/-- The reset step (70_reset_and_hazards.md R380) with the power-on decision (43_boot_controller.md R300). DESIGN
CHOICE, unsafe (log entry 20): where a reset with `skip_in = 1` interrupts a sequence on the slot's page, the hand-off
reads the slot after that page became a draw (20_memory.md R92), so `app_entry` is the drawn slot. The spec does not say
whether it reads the slot before or after. -/
def resetStep (s : State) : Result :=
  if s.env.inp.skipIn then handoff .skip (resetRegisters s) else .next (resetRegisters s)

/-- Entry to LISTENING (43_boot_controller.md R304). -/
def enterListening (s : State) : State :=
  decStart { s with boot.bootState := .listening, boot.lstPhase := .rx }

/-- This step ends a blink cycle (43_boot_controller.md R301). -/
def blinkTick (s : State) : Bool := s.boot.blinkCnt + 1 == s.cfg.blinkTicks

/-- The pin differs from the level WAIT_SIGNAL saw last (43_boot_controller.md R301). -/
def waitEdge (s : State) : Bool := s.env.inp.pinIn != s.boot.waitRef

/-- The blink schedule and the level seen last, which every WAIT_SIGNAL step writes (43_boot_controller.md R301). -/
def waitSchedule (s : State) : State :=
  { s with
    boot.blinkCnt := if blinkTick s then 0 else s.boot.blinkCnt + 1
    boot.led := if blinkTick s then !s.boot.led else s.boot.led
    boot.timeoutLeft := if blinkTick s then s.boot.timeoutLeft - 1 else s.boot.timeoutLeft
    boot.waitRef := if waitEdge s then s.env.inp.pinIn else s.boot.waitRef }

/-- WAIT_SIGNAL (43_boot_controller.md R301): the timeout wins over an edge. -/
def waitSignalStep (s : State) : Result :=
  let t := waitSchedule s
  if blinkTick s && s.boot.timeoutLeft == 1 then handoff .timeout t
  else if waitEdge s then
    if s.boot.waitEdgesLeft = 1#2 then .next (enterListening t)
    else .next { t with boot.waitEdgesLeft := s.boot.waitEdgesLeft - 1#2 }
  else .next t

/-- ERROR_HANG (43_boot_controller.md R309). -/
def errorHangStep (s : State) : State :=
  if s.boot.blinkCnt + 1 = s.cfg.fastBlinkTicks then toggleLed { s with boot.blinkCnt := 0 }
  else { s with boot.blinkCnt := s.boot.blinkCnt + 1 }

end Sys2Proof.Machine
end

