-- ==== Sys2Proof/Machine/Dispatch.lean ====
section
/-! DEFINITION. The one dispatch from an instruction to its meaning (41_dispatcher.md R210). -/

namespace Sys2Proof.Machine

/-- DISPATCH: exactly one command is executed per frame (41_dispatcher.md R210). -/
def exec (i : Instr) (s : State) : Host.Outcome State Fault Refusal :=
  match i with
  | .noCommand _ => Sys2Proof.Machine.execNoCommand s
  | .test _ => Sys2Proof.Machine.execTest s
  | .program f => Sys2Proof.Machine.execProgram f s
  | .run _ => Sys2Proof.Machine.execRun s
  | .eepromWrite f => Sys2Proof.Machine.execEepromWrite f s
  | .exit _ => Sys2Proof.Machine.execExit s
  | .unrecognised06 _ _ => Sys2Proof.Machine.execUnrecognised06 s
  | .unrecognised08 _ _ => Sys2Proof.Machine.execUnrecognised08 s
  | .unrecognised10 _ _ => Sys2Proof.Machine.execUnrecognised10 s
  | .unrecognised20 _ _ => Sys2Proof.Machine.execUnrecognised20 s
  | .unrecognised40 _ _ => Sys2Proof.Machine.execUnrecognised40 s
  | .unrecognised80 _ _ => Sys2Proof.Machine.execUnrecognised80 s

end Sys2Proof.Machine
end

