-- ==== Sys2Proof/Machine/Step.lean ====
section
/-! DEFINITION. One step of the block: one tick of its timer (00_scope.md R3; 60_exceptions.md R346). -/

namespace Sys2Proof.Machine

/-- The rules of LISTENING: the decoder in RX, the Dispatcher in the other phases (43_boot_controller.md R305). -/
def listeningStep (s : State) : Result :=
  match s.boot.lstPhase with
  | .rx => .next (decoderStep s)
  | .dispatch =>
    match fetch s with
    | .ok i => exec i s
    | .error e => .refused (.undecodableFrame e)
  | .progWait => progWaitStep s
  | .runWait => runWaitStep s
  | .eeWrite => eeWriteStep s

/-- The rules of the one Boot Controller state that is current; RUN_APPLICATION has none (43_boot_controller.md
R307). -/
def controllerStep (s : State) : Result :=
  match s.boot.bootState with
  | .waitSignal => waitSignalStep s
  | .listening => listeningStep s
  | .errorHang => .next (errorHangStep s)
  | .runApplication => .next s

/-- One step (60_exceptions.md R346): a reset overrides everything; otherwise the current state's rules act. -/
def step (s : State) : Host.Outcome State Fault Refusal :=
  match stepRefusal (sampleInputs s) with
  | some r => .refused r
  | none =>
    let t := tick (sampleInputs s)
    if t.env.inp.rst then resetStep t else controllerStep t

/-- The state whose next step dispatches the frame whose first `nbits` bits are `w` and whose other bits are 0
(log entry 8). -/
def State.withFetchWord (s : State) (nbits w : Nat) : State :=
  placeFrame s (tableFrame s.cfg.pageSize nbits w)

end Sys2Proof.Machine
end

