-- ==== Sys2Proof/Machine/LineCode.lean ====
section
/-! DEFINITION. The line code as a transmitter sends it (30_encoding.md R120 to R124): the spec's reference encoder.
No rule of the block uses it; claims about the decoder are stated with it. -/

namespace Sys2Proof.Machine

/-- The bits of a byte, bit 7 first (30_encoding.md R121). -/
def byteBits (b : Byte) : List Bool :=
  [b.getLsbD 7, b.getLsbD 6, b.getLsbD 5, b.getLsbD 4, b.getLsbD 3, b.getLsbD 2, b.getLsbD 1, b.getLsbD 0]

/-- The pin levels of one nominal cell of `p` steps after a line at level `l`: a transition at its start, and for a
`1` one more at `floor(p / 2)` (30_encoding.md R120, R123). -/
def cell (p : Nat) (l b : Bool) : List Bool :=
  if b then List.replicate (p / 2) (!l) ++ List.replicate (p - p / 2) l else List.replicate p (!l)

/-- The level a cell leaves the line at. -/
def levelAfter (l b : Bool) : Bool := if b then l else !l

/-- The pin levels of a list of cells (30_encoding.md R121). -/
def cells (p : Nat) (l : Bool) : List Bool → List Bool
  | [] => []
  | b :: bs => cell p l b ++ cells p (levelAfter l b) bs

/-- `TX(p, l0, idle, k, bytes)` (30_encoding.md R124): idle steps, `k` preamble cells, the start cell, the data
cells. -/
def tx (p : Nat) (l0 : Bool) (idle k : Nat) (bytes : List Byte) : List Bool :=
  List.replicate idle l0 ++ cells p l0 (List.replicate k false ++ true :: bytes.flatMap byteBits)

/-- The inputs of a pin trace in an environment that does nothing else and answers every flash operation after
`lat` ticks. -/
def traceInputs (lat : Nat) (pins : List Bool) : List Input :=
  pins.map fun b => { Input.quiet with pinIn := b, fcLat := lat }

end Sys2Proof.Machine
end

