-- ==== Sys2Proof/Safety.lean ====
section
/-! DEFINITION. What counts as a safe run, in the terms the claims use: the invariants of the block, the environment
that meets its duties, one sequence of the Flash Programmer, and the observation of a successful end. -/

namespace Sys2Proof.Machine

/-! ## The next step's inputs -/

/-- The inputs that the next step samples. -/
def nextInput (s : State) : Input := (sampleInputs s).env.inp

/-- The timer as the next step's rules read it, after its increment (10_state.md R38). -/
def nextTmr (s : State) : Nat := (s.dec.tmr + 1) % 2 ^ s.cfg.timerW

/-- The flash controller is busy in the next step, after its decrement (10_state.md R45). -/
def nextBusy (s : State) : Prop := 0 < s.fc.busyLeft - 1

/-- The state from which the rules of the next step act: inputs sampled, timer incremented, busy time counted down,
pulses low (10_state.md R38, R45). -/
abbrev begun (s : State) : State := tick (sampleInputs s)

/-- The next step is an ordinary one: the configuration is well formed, the environment meets its duties
(70_reset_and_hazards.md R393), and there is no reset. -/
def Ordinary (s : State) : Prop := stepRefusal (sampleInputs s) = none ∧ (nextInput s).rst = false

/-- The latency that the next step draws, if it issues a flash operation, lies in the range of 10_state.md R36. -/
def LatencyOk (s : State) : Prop :=
  (s.fp.phase = .erase → 1 ≤ (nextInput s).fcLat ∧ (nextInput s).fcLat ≤ s.cfg.maxErase) ∧
  (s.fp.phase = .fill → (nextInput s).fcLat ≤ s.cfg.maxFill) ∧
  (s.fp.phase = .commit → 1 ≤ (nextInput s).fcLat ∧ (nextInput s).fcLat ≤ s.cfg.maxWrite)

/-- The Signal Decoder acts: LISTENING with `lst_phase = RX` (40_decoder.md, opening). -/
def Receiving (s : State) : Prop := s.boot.bootState = .listening ∧ s.boot.lstPhase = .rx

/-! ## Phases -/

/-- The phases that wait for an edge of the pin (40_decoder.md R170). -/
def edgeWaiting : DecPhase → Bool
  | .syncFirst | .syncMeas | .startEdge | .dataEdge => true
  | .idle | .startSample | .dataSample => false

/-- The phases that follow the sixteenth sync edge of a reception (40_decoder.md R165 to R168). -/
def afterSync : DecPhase → Bool
  | .startSample | .startEdge | .dataEdge | .dataSample => true
  | .idle | .syncFirst | .syncMeas => false

/-- The phases at whose start the erase has been issued and the sequence has not left the critical section
(42_flash_programmer.md R262). -/
def interruptsMasked : FpPhase → Bool
  | .eraseWait | .fill | .fillWait | .commit | .commitWait | .rww => true
  | .idle | .read | .erase | .done => false

/-- The phases in which the page is erased and not yet committed (42_flash_programmer.md R252 to R258). -/
def pageErased : FpPhase → Bool
  | .eraseWait | .fill | .fillWait | .commit => true
  | .idle | .read | .erase | .commitWait | .rww | .done => false

/-- The wait phases, the only ones in which the controller may be busy (20_memory.md R94). -/
def waitsForFlash : FpPhase → Bool
  | .eraseWait | .fillWait | .commitWait => true
  | .idle | .read | .erase | .fill | .commit | .rww | .done => false

/-! ## Invariants -/

/-- Every register whose width depends on the configuration lies inside it (10_state.md R37 to R42). -/
structure Ranges (s : State) : Prop where
  tmr : s.dec.tmr < 2 ^ s.cfg.timerW
  acc : s.dec.acc < 2 ^ s.cfg.accW
  delay : s.dec.delay < 2 ^ s.cfg.timerW
  bitIdx : s.dec.bitIdx ≤ s.cfg.frameBits
  eeBase : s.ee.base < s.cfg.pageSize * 2 ^ 16
  page : s.fp.page < s.cfg.flashSize
  idx : s.fp.idx ≤ s.cfg.pageWords
  blkOff : s.fp.blkOff < s.cfg.pageSize
  blkLen : s.fp.blkLen < s.cfg.pageSize
  timeoutLeft : s.boot.timeoutLeft ≤ s.cfg.bootTimeout
  blinkCnt : s.boot.blinkCnt < max s.cfg.blinkTicks s.cfg.fastBlinkTicks

/-- A byte array in canonical form that lists addresses below `n` only. -/
abbrev MemoryOk (n : Nat) (m : Memory) : Prop := m.wf ∧ ∀ c ∈ m, c.1 < n

/-- The five byte arrays of the block have their canonical form and their sizes (20_memory.md R80; 10_state.md R42). -/
structure Arrays (s : State) : Prop where
  flash : MemoryOk s.cfg.flashSize s.fc.flash
  pb : MemoryOk s.cfg.pageSize s.fc.pb
  frame : MemoryOk s.cfg.frameSize s.frame
  m : MemoryOk s.cfg.pageSize s.fp.m
  blk : MemoryOk (s.cfg.pageSize - 1) s.fp.blk

/-- The invariant of the block: what the spec derives of every state that a run reaches. -/
structure Inv (s : State) : Prop where
  /-- 00_scope.md R8. -/
  cfg : s.cfg.wf = true
  ranges : Ranges s
  arrays : Arrays s
  /-- 43_boot_controller.md R308: `dec_ok` is 1, so ERROR_HANG is not entered. -/
  decOk : s.dec.ok = true
  noHang : s.boot.bootState ≠ .errorHang
  /-- WAIT_SIGNAL counts down (43_boot_controller.md R301). -/
  waiting : s.boot.bootState = .waitSignal →
    1 ≤ s.boot.timeoutLeft ∧ s.boot.blinkCnt < s.cfg.blinkTicks ∧ s.boot.waitEdgesLeft ≠ 0#2
  /-- 40_decoder.md R161: the decoder runs exactly in LISTENING/RX. -/
  decoding : s.dec.phase ≠ .idle ↔ s.boot.bootState = .listening ∧ s.boot.lstPhase = .rx
  /-- 40_decoder.md R163: fewer than 16 intervals are measured while measuring. -/
  measuring : s.dec.phase = .syncMeas → s.dec.n.toNat < 16
  /-- 40_decoder.md R163: the accumulator holds the intervals after the eighth, so the sum never wraps. -/
  summing : s.dec.phase = .syncMeas → s.dec.acc ≤ (s.dec.n.toNat - 8) * (2 ^ s.cfg.timerW - 1)
  /-- 40_decoder.md R164, R174: the sample delay is that of the estimate for the whole frame. -/
  estimate : afterSync s.dec.phase = true → s.dec.delay = 3 * s.dec.acc / 32
  /-- 40_decoder.md R168: a data phase has a bit left to store. -/
  receiving : s.dec.phase = .dataEdge ∨ s.dec.phase = .dataSample → s.dec.bitIdx < s.cfg.frameBits
  /-- 41_dispatcher.md R218, R219: the programmer runs exactly in PROG_WAIT and RUN_WAIT. -/
  programming : s.fp.phase ≠ .idle ↔
    s.boot.bootState = .listening ∧ (s.boot.lstPhase = .progWait ∨ s.boot.lstPhase = .runWait)
  /-- PROGRAM starts a full page program, RUN a block write (42_flash_programmer.md R250, R251). -/
  kind : s.fp.phase ≠ .idle →
    (s.boot.lstPhase = .progWait → s.fp.kind = .fullPage) ∧ (s.boot.lstPhase = .runWait → s.fp.kind = .block)
  /-- Only a block write reads its page (42_flash_programmer.md R263). -/
  reading : s.fp.phase = .read → s.fp.kind = .block
  /-- The page is aligned and lies below BOOT_START (20_memory.md R82, R91). -/
  page : s.fp.phase ≠ .idle → s.fp.page % s.cfg.pageSize = 0 ∧ s.fp.page + s.cfg.pageSize ≤ s.cfg.bootStart
  /-- The block is the function-address slot (42_flash_programmer.md R265). -/
  slot : s.fp.phase ≠ .idle → s.fp.kind = .block →
    s.fp.page + s.cfg.pageSize = s.cfg.bootStart ∧ s.fp.blkOff + 2 = s.cfg.pageSize ∧ s.fp.blkLen = 2
  /-- The next word to fill is a word of the page (42_flash_programmer.md R255, R257). -/
  filling : s.fp.phase = .fill ∨ s.fp.phase = .fillWait → s.fp.idx < s.cfg.pageWords
  /-- The controller is busy in the wait phases only (20_memory.md R84, R94). -/
  busy : waitsForFlash s.fp.phase = false → s.fc.busyLeft = 0
  /-- Flash reads are disabled from the erase to RWW, and only then (20_memory.md R95). -/
  rww : s.fc.rwwEn = !interruptsMasked s.fp.phase
  /-- Interrupts are masked from the erase to RWW (42_flash_programmer.md R262). -/
  masked : interruptsMasked s.fp.phase = true → s.cpuIe = false
  /-- The commit follows an erase of the same page (42_flash_programmer.md R258). -/
  erased : pageErased s.fp.phase = true → s.fc.erased = some s.fp.page
  /-- Words are filled in increasing order (42_flash_programmer.md R255). -/
  filled :
    (s.fp.phase = .fill → ∀ k < s.fp.idx, 2 * k ∈ s.fc.filled) ∧
    (s.fp.phase = .fillWait → ∀ k < s.fp.idx + 1, 2 * k ∈ s.fc.filled) ∧
    (s.fp.phase = .commit → ∀ k < s.cfg.pageWords, 2 * k ∈ s.fc.filled)

/-- 40_decoder.md R171: in an edge-waiting phase of LISTENING/RX the reference level is the pin level of the last
step, so that an edge is a transition of the pin. -/
def RefIsLastPin (s : State) : Prop := edgeWaiting s.dec.phase = true → s.dec.ref = s.env.inp.pinIn

/-- Word 0 of FLASH (20_memory.md R81). -/
def word0 (s : State) : Word := le16 (s.fc.flash.read 0) (s.fc.flash.read 1)

/-- The page-zero vector invariant of 42_flash_programmer.md R268, in the form that holds in every step: word 0 is the
bootloader jump, but between the erase and the commit of page 0 it is what the programmer is about to write there. -/
def VectorKept (s : State) : Prop :=
  if s.fp.phase ≠ .idle ∧ s.fp.page = 0 ∧ pageErased s.fp.phase = true then
    (s.fp.kind = .block → srcWord s 0 = s.cfg.bootJumpWord) ∧
    (s.fp.phase = .fill → 0 < s.fp.idx → le16 (s.fc.pb.read 0) (s.fc.pb.read 1) = s.cfg.bootJumpWord) ∧
    (s.fp.phase = .fillWait ∨ s.fp.phase = .commit →
      le16 (s.fc.pb.read 0) (s.fc.pb.read 1) = s.cfg.bootJumpWord)
  else
    word0 s = s.cfg.bootJumpWord ∧
    (s.fp.phase = .erase → s.fp.page = 0 → s.fp.kind = .block → srcWord s 0 = s.cfg.bootJumpWord)

/-! ## Hand-off -/

/-- The CPU may fetch from flash (20_memory.md R95). -/
def FetchLegal (s : State) : Prop := s.fc.rwwEn = true ∧ s.fc.busyLeft = 0

/-- The function-address slot as a little-endian value (20_memory.md R81, R90). -/
def slotValue (s : State) : Word :=
  le16 (s.fc.flash.read s.cfg.funcAddr) (s.fc.flash.read (s.cfg.funcAddr + 1))

/-- What is observed of a successful end (70_reset_and_hazards.md R394). -/
structure Observation where
  flash : Memory
  eeLog : List EeWrite
  appEntry : Word
  appCause : AppCause
  sev : Word
  led : Bool
  deriving DecidableEq, Repr

/-- The observation, in a state of RUN_APPLICATION only (70_reset_and_hazards.md R394). -/
def observe (s : State) : Option Observation :=
  if s.boot.bootState = .runApplication then
    some { flash := s.fc.flash, eeLog := s.eeLog, appEntry := s.boot.appEntry, appCause := s.boot.appCause,
           sev := s.sev, led := s.boot.led }
  else none

/-! ## Runs -/

/-- The outcome of `n` steps. -/
def runSteps : Nat → State → Result
  | 0, s => .next s
  | n + 1, s => andThen (Machine.step s) (runSteps n)

/-- The environment is quiet from now on: no inputs are listed, so the last ones are held, and these hold no reset, no
write of `cpu_ie` and no interrupt. -/
def Quiet (s : State) : Prop :=
  s.env.inputs = [] ∧ s.env.inp.rst = false ∧ s.env.inp.cpuIe = none ∧ s.env.inp.cpuIrq = false

/-- `t` is reached from `s` inside one sequence of the Flash Programmer: by steps that are no resets, none of them
made in a state that is already DONE (42_flash_programmer.md R266, R267). -/
inductive SequenceRun (s : State) : State → Prop where
  | start : SequenceRun s s
  | step (t u : State) : SequenceRun s t → t.fp.phase ≠ .done → (nextInput t).rst = false →
      Machine.step t = .next u → SequenceRun s u

/-- How often a line at level `l` changes over a list of levels. -/
def levelChanges (l : Bool) : List Bool → Nat
  | [] => 0
  | b :: bs => (if b = l then 0 else 1) + levelChanges b bs

/-- The listed inputs hold no reset and no interrupt of the CPU. -/
def CalmInputs (s : State) : Prop := ∀ i ∈ s.env.inputs, i.rst = false ∧ i.cpuIrq = false

/-- The state with every pin level inverted: the level of the last step, those to come, and the two registers that
hold a level (30_encoding.md R120). -/
def invertPin (s : State) : State :=
  { s with
    env :=
      { inp := { s.env.inp with pinIn := !s.env.inp.pinIn },
        inputs := s.env.inputs.map fun i => { i with pinIn := !i.pinIn } }
    boot.waitRef := !s.boot.waitRef
    dec.ref := !s.dec.ref }

/-- An outcome with its next state changed. -/
def mapNext (f : State → State) : Result → Result
  | .next s => .next (f s)
  | .fault e => .fault e
  | .refused r => .refused r

/-- Every byte of FLASH outside one page reads the same in two states. -/
def SameOutsidePage (p : Nat) (s t : State) : Prop :=
  ∀ a, a < p ∨ p + s.cfg.pageSize ≤ a → t.fc.flash.read a = s.fc.flash.read a

end Sys2Proof.Machine
end

