-- ==== Sys2Proof/Certificates/Slice0/Obligations.lean ====
section
/-! DEFINITION. The statements for the provers. OBLIGATIONS.json lists them in this order. A statement that gives a
whole next state through `begun s` takes in the model's own conventions of that front of the step: the CPU's write of
`cpu_ie` (log entry 9) and the held `ee_addr` and `ee_data`, the EEPROM log and the step number (log entry 16). -/

open Sys2Proof Sys2Proof.Machine

/-! ## Encoding -/

/-- 30_encoding.md R130, R131, R136: decoding the encoding of a well-formed instruction gives it back, with every
field at every value. -/
def Obligations.EncodeThenDecode : Prop :=
  ∀ (c : Config) (i : Instr), i.wf c = true → decode c.pageSize (encode i) = .ok i

/-- 30_encoding.md R130, R137: the other direction. No bit of a frame is dropped, and what is decoded is well formed. -/
def Obligations.DecodeThenEncode : Prop :=
  ∀ (c : Config) (bs : List Byte) (i : Instr), decode c.pageSize bs = .ok i → encode i = bs ∧ i.wf c = true

/-- 30_encoding.md R132, R137: the frame has one length only, and every frame of that length has a meaning. -/
def Obligations.DecodeOfLength : Prop :=
  ∀ (c : Config) (bs : List Byte),
    (bs.length = c.frameSize → ∃ i, decode c.pageSize bs = .ok i) ∧
    (bs.length ≠ c.frameSize → decode c.pageSize bs = .error (.frameLength bs.length))

/-- 30_encoding.md R136: all 8 bits of the command byte are decoded, a value matches a command only if it equals the
code exactly, and no other field takes part. The six rows of the opcode table cover 6 to 255. -/
def Obligations.CommandByteSelects : Prop :=
  ∀ (c : Byte) (f : Frame),
    (decodeCommand c f = .noCommand f ↔ c.toNat = 0) ∧
    (decodeCommand c f = .test f ↔ c.toNat = 1) ∧
    (decodeCommand c f = .program f ↔ c.toNat = 2) ∧
    (decodeCommand c f = .run f ↔ c.toNat = 3) ∧
    (decodeCommand c f = .eepromWrite f ↔ c.toNat = 4) ∧
    (decodeCommand c f = .exit f ↔ c.toNat = 5) ∧
    ((∃ b, decodeCommand c f = .unrecognised06 b f) ↔ 0x06 ≤ c.toNat ∧ c.toNat ≤ 0x07) ∧
    ((∃ b, decodeCommand c f = .unrecognised08 b f) ↔ 0x08 ≤ c.toNat ∧ c.toNat ≤ 0x0F) ∧
    ((∃ b, decodeCommand c f = .unrecognised10 b f) ↔ 0x10 ≤ c.toNat ∧ c.toNat ≤ 0x1F) ∧
    ((∃ b, decodeCommand c f = .unrecognised20 b f) ↔ 0x20 ≤ c.toNat ∧ c.toNat ≤ 0x3F) ∧
    ((∃ b, decodeCommand c f = .unrecognised40 b f) ↔ 0x40 ≤ c.toNat ∧ c.toNat ≤ 0x7F) ∧
    ((∃ b, decodeCommand c f = .unrecognised80 b f) ↔ 0x80 ≤ c.toNat)

/-- 30_encoding.md R131: the three header fields are unsigned and little-endian, and the byte address of a page is the
exact product. -/
def Obligations.HeaderFields : Prop :=
  ∀ (c : Config) (cmd b1 b2 b3 b4 b5 b6 : Byte) (payload : List Byte) (i : Instr),
    decode c.pageSize (cmd :: b1 :: b2 :: b3 :: b4 :: b5 :: b6 :: payload) = .ok i →
    i.frame.page.toNat = b2.toNat * 256 + b1.toNat ∧
    i.frame.length.toNat = b4.toNat * 256 + b3.toNat ∧
    i.frame.checksum.toNat = b6.toNat * 256 + b5.toNat ∧
    i.frame.payload = payload ∧
    pageAddr c i.frame.page = c.pageSize * (b2.toNat * 256 + b1.toNat)

/-- 30_encoding.md R130, R145 and 95_test_vectors.md P2, P3, P4: frames written out byte by byte. -/
def Obligations.SpecFramesDecode : Prop :=
  decode 4 [0x02#8, 0x00#8, 0x00#8, 0x04#8, 0x00#8, 0x00#8, 0x00#8, 0x0F#8, 0xC0#8, 0xAA#8, 0xBB#8] =
    .ok (.program { page := 0#16, length := 4#16, checksum := 0#16, payload := [0x0F#8, 0xC0#8, 0xAA#8, 0xBB#8] }) ∧
  decode 4 [0x03#8, 0x00#8, 0x00#8, 0x00#8, 0x00#8, 0x00#8, 0x00#8, 0x00#8, 0x00#8, 0x00#8, 0x00#8] =
    .ok (.run { page := 0#16, length := 0#16, checksum := 0#16, payload := [0#8, 0#8, 0#8, 0#8] }) ∧
  decode 4 [0x04#8, 0x03#8, 0x00#8, 0x02#8, 0x00#8, 0x34#8, 0x12#8, 0xAA#8, 0xBB#8, 0xCC#8, 0xDD#8] =
    .ok (.eepromWrite
      { page := 3#16, length := 2#16, checksum := 0x1234#16, payload := [0xAA#8, 0xBB#8, 0xCC#8, 0xDD#8] }) ∧
  decode 4 [0x01#8, 0x00#8, 0x00#8, 0x00#8, 0x00#8, 0x00#8, 0x00#8, 0x00#8, 0x00#8, 0x00#8, 0x00#8] =
    .ok (.test { page := 0#16, length := 0#16, checksum := 0#16, payload := [0#8, 0#8, 0#8, 0#8] })

/-! ## Reset -/

/-- 70_reset_and_hazards.md R380: the registers to which the reset gives a value, at `State.reset`. The configuration
EX4 and a low pin are the model's choice (log entries 1 and 4). -/
def Obligations.ResetState : Prop :=
  State.reset.boot.bootState = .waitSignal ∧ State.reset.boot.lstPhase = .rx ∧
  State.reset.boot.waitRef = State.reset.env.inp.pinIn ∧ State.reset.boot.waitEdgesLeft = 3#2 ∧
  State.reset.boot.timeoutLeft = State.reset.cfg.bootTimeout ∧ State.reset.boot.blinkCnt = 0 ∧
  State.reset.boot.led = false ∧ State.reset.boot.appCause = .none ∧ State.reset.dec.phase = .idle ∧
  State.reset.dec.ok = true ∧ State.reset.fp.phase = .idle ∧ State.reset.sevValid = false ∧
  State.reset.fc.busyLeft = 0 ∧ State.reset.fc.rwwEn = true ∧ State.reset.out.eeWe = false ∧
  State.reset.out.frameOk = false

/-- The invariant of the block holds at `State.reset`. -/
def Obligations.InvAtReset : Prop := Inv State.reset

/-- 43_boot_controller.md R300: the power-on decision, in every state with a well-formed configuration. That the entry
of a skip is the slot as the reset leaves it, also where the reset interrupts a sequence on the slot's page, is the
model's choice (log entry 20), and so are the WAIT_SIGNAL registers' values beside a skip, of which nothing is said
(log entry 15). -/
def Obligations.PowerOnDecision : Prop :=
  ∀ s : State, s.cfg.wf = true → (nextInput s).rst = true →
    ∃ t, step s = .next t ∧
      ((nextInput s).skipIn = true →
        t.boot.bootState = .runApplication ∧ t.boot.appCause = .skip ∧ t.boot.appEntry = slotValue t ∧
        t.dec.phase = .idle ∧ t.fp.phase = .idle) ∧
      ((nextInput s).skipIn = false →
        t.boot.bootState = .waitSignal ∧ t.boot.appCause = .none ∧ t.boot.waitRef = (nextInput s).pinIn ∧
        t.boot.waitEdgesLeft = 3#2 ∧ t.boot.timeoutLeft = s.cfg.bootTimeout ∧ t.boot.blinkCnt = 0)

/-- 70_reset_and_hazards.md R380: the other registers to which a reset step gives a value, the parameter of the run
that it keeps, and the CPU's own `cpu_ie` where the environment gives it one. -/
def Obligations.ResetStepValues : Prop :=
  ∀ s t : State, (nextInput s).rst = true → step s = .next t →
    t.cfg = s.cfg ∧ t.boot.lstPhase = .rx ∧ t.boot.led = false ∧ t.dec.phase = .idle ∧ t.dec.ok = true ∧
    t.fp.phase = .idle ∧ t.sevValid = false ∧ t.fc.busyLeft = 0 ∧ t.fc.rwwEn = true ∧ t.out.eeWe = false ∧
    t.out.frameOk = false ∧ (∀ b, (nextInput s).cpuIe = some b → t.cpuIe = b)

/-- 20_memory.md R92, 70_reset_and_hazards.md R383: a reset leaves FLASH as it is, but for the page of a sequence that
it interrupts. -/
def Obligations.ResetKeepsOtherPages : Prop :=
  ∀ s t : State, (nextInput s).rst = true → step s = .next t →
    (s.fp.phase = .idle ∨ s.fp.phase = .done → t.fc.flash = s.fc.flash) ∧ SameOutsidePage s.fp.page s t

/-! ## Every step -/

/-- 10_state.md R38, R45: what happens before the rules of a step act, and that nothing else does. Three clauses are the
model's choice: the CPU's write of `cpu_ie` at this point (log entry 9), the held `ee_addr` and `ee_data` while `ee_we`
falls to 0, and the step number (both log entry 16). -/
def Obligations.FrontOfStep : Prop :=
  ∀ s : State, begun s =
    { s with
      env := (begun s).env
      dec.tmr := (s.dec.tmr + 1) % 2 ^ s.cfg.timerW
      fc.busyLeft := s.fc.busyLeft - 1
      out.eeWe := false
      out.frameOk := false
      cpuIe := (nextInput s).cpuIe.getD s.cpuIe
      stepNo := s.stepNo + 1 }

/-- 10_state.md R38, 60_exceptions.md R348: in every step without a reset the timer increments, and only a decoder that
sees an edge sets it to 0. -/
def Obligations.TimerFreeRuns : Prop :=
  ∀ s t : State, Ordinary s → step s = .next t →
    t.dec.tmr = nextTmr s ∨
    (t.dec.tmr = 0 ∧ Receiving s ∧ edgeWaiting s.dec.phase = true ∧ (nextInput s).pinIn ≠ s.dec.ref)

/-- 00_scope.md R8, 70_reset_and_hazards.md R385, R393: a configuration that is not well formed has no meaning, and an
environment that breaks its duties has no move in the model. That an interrupt is judged by the `cpu_ie` of the start
of the step, before a write of it in the same step, is the model's choice (log entry 9). -/
def Obligations.RefusedSteps : Prop :=
  ∀ s : State,
    (s.cfg.wf = false → step s = .refused .illFormedConfiguration) ∧
    (s.cfg.wf = true → (nextInput s).rst = false → (nextInput s).cpuIrq = true →
      s.cpuIe = false ∨ inCriticalSpan s.fp.phase = true → step s = .refused .interruptWhileMasked) ∧
    (s.cfg.wf = true → (nextInput s).rst = false → (nextInput s).cpuIrq = false → (nextInput s).cpuIe ≠ none →
      inCriticalSpan s.fp.phase = true → step s = .refused .interruptEnableTaken)

/-- 43_boot_controller.md, opening, with R301, R305 and R307 to R309: the transitions of `boot_state` in a step without
a reset. -/
def Obligations.BootTransitions : Prop :=
  ∀ s t : State, Ordinary s → step s = .next t →
    match s.boot.bootState with
    | .waitSignal =>
      t.boot.bootState = .waitSignal ∨ t.boot.bootState = .listening ∨
        (t.boot.bootState = .runApplication ∧ t.boot.appCause = .timeout)
    | .listening =>
      t.boot.bootState = .listening ∨
        (t.boot.bootState = .runApplication ∧ (t.boot.appCause = .run ∨ t.boot.appCause = .eeprom)) ∨
        (t.boot.bootState = .errorHang ∧ s.dec.ok = false)
    | .errorHang => t.boot.bootState = .errorHang
    | .runApplication => t.boot.bootState = .runApplication

/-- 10_state.md R33, R35: every output port, and every code of the enumerated registers. `ee_addr` and `ee_data` are
stated while `ee_we` is 1, as R33 gives them. `fp_kind` has a code and no port. -/
def Obligations.PortsShowState : Prop :=
  ∀ s : State,
    ((ports s).appStart = true ↔ s.boot.bootState = .runApplication) ∧
    ((ports s).errHang = true ↔ s.boot.bootState = .errorHang) ∧
    (ports s).led = s.boot.led ∧ (ports s).appEntry = s.boot.appEntry ∧
    (ports s).frameOk = s.out.frameOk ∧ (ports s).eeWe = s.out.eeWe ∧
    ((ports s).eeWe = true → (ports s).eeAddr = s.out.eeAddr ∧ (ports s).eeData = s.out.eeData) ∧
    ((ports s).bootState = 0#2 ↔ s.boot.bootState = .waitSignal) ∧
    ((ports s).bootState = 1#2 ↔ s.boot.bootState = .listening) ∧
    ((ports s).bootState = 2#2 ↔ s.boot.bootState = .errorHang) ∧
    ((ports s).bootState = 3#2 ↔ s.boot.bootState = .runApplication) ∧
    ((ports s).lstPhase = 0#3 ↔ s.boot.lstPhase = .rx) ∧
    ((ports s).lstPhase = 1#3 ↔ s.boot.lstPhase = .dispatch) ∧
    ((ports s).lstPhase = 2#3 ↔ s.boot.lstPhase = .progWait) ∧
    ((ports s).lstPhase = 3#3 ↔ s.boot.lstPhase = .runWait) ∧
    ((ports s).lstPhase = 4#3 ↔ s.boot.lstPhase = .eeWrite) ∧
    ((ports s).decPhase = 0#3 ↔ s.dec.phase = .idle) ∧
    ((ports s).decPhase = 1#3 ↔ s.dec.phase = .syncFirst) ∧
    ((ports s).decPhase = 2#3 ↔ s.dec.phase = .syncMeas) ∧
    ((ports s).decPhase = 3#3 ↔ s.dec.phase = .startSample) ∧
    ((ports s).decPhase = 4#3 ↔ s.dec.phase = .startEdge) ∧
    ((ports s).decPhase = 5#3 ↔ s.dec.phase = .dataEdge) ∧
    ((ports s).decPhase = 6#3 ↔ s.dec.phase = .dataSample) ∧
    ((ports s).fpPhase = 0#4 ↔ s.fp.phase = .idle) ∧
    ((ports s).fpPhase = 1#4 ↔ s.fp.phase = .read) ∧
    ((ports s).fpPhase = 2#4 ↔ s.fp.phase = .erase) ∧
    ((ports s).fpPhase = 3#4 ↔ s.fp.phase = .eraseWait) ∧
    ((ports s).fpPhase = 4#4 ↔ s.fp.phase = .fill) ∧
    ((ports s).fpPhase = 5#4 ↔ s.fp.phase = .fillWait) ∧
    ((ports s).fpPhase = 6#4 ↔ s.fp.phase = .commit) ∧
    ((ports s).fpPhase = 7#4 ↔ s.fp.phase = .commitWait) ∧
    ((ports s).fpPhase = 8#4 ↔ s.fp.phase = .rww) ∧
    ((ports s).fpPhase = 9#4 ↔ s.fp.phase = .done) ∧
    ((ports s).appCause = 0#3 ↔ s.boot.appCause = .none) ∧
    ((ports s).appCause = 1#3 ↔ s.boot.appCause = .skip) ∧
    ((ports s).appCause = 2#3 ↔ s.boot.appCause = .timeout) ∧
    ((ports s).appCause = 3#3 ↔ s.boot.appCause = .run) ∧
    ((ports s).appCause = 4#3 ↔ s.boot.appCause = .eeprom) ∧
    (fpKindCode s.fp.kind = 0#1 ↔ s.fp.kind = .fullPage) ∧
    (fpKindCode s.fp.kind = 1#1 ↔ s.fp.kind = .block) ∧
    (ports s).lstPhase.toNat < 5 ∧ (ports s).decPhase.toNat < 7 ∧ (ports s).fpPhase.toNat < 10 ∧
    (ports s).appCause.toNat < 5

/-! ## Who writes what -/

/-- 20_memory.md R80: in a step without a reset FLASH changes only by an erase or a commit of the Flash Programmer, and
only in its page. -/
def Obligations.FlashWriters : Prop :=
  ∀ s t : State, Ordinary s → step s = .next t →
    t.fc.flash = s.fc.flash ∨
    ((s.fp.phase = .erase ∨ s.fp.phase = .commit) ∧ SameOutsidePage s.fp.page s t)

/-- 10_state.md R40: in a step without a reset a byte of the frame buffer changes only by the decoder's bit store or by
the clearing of the command byte. -/
def Obligations.FrameBufferWriters : Prop :=
  ∀ (s t : State) (a : Nat), Ordinary s → step s = .next t → t.frame.read a ≠ s.frame.read a →
    (Receiving s ∧ s.dec.phase = .dataSample ∧ a = s.dec.bitIdx / 8) ∨ (a = 0 ∧ t.frame.read 0 = 0#8)

/-- 10_state.md R43: in a step without a reset `sev` changes only by the page-zero intercept. -/
def Obligations.SavedVectorWriters : Prop :=
  ∀ s t : State, Ordinary s → step s = .next t → t.sev ≠ s.sev →
    s.fp.phase = .fill ∧ s.fp.kind = .fullPage ∧ s.fp.page = 0 ∧ s.fp.idx = 0 ∧ t.sevValid = true

/-! ## The commands -/

/-- 41_dispatcher.md R210: a step in DISPATCH runs the instruction that the frame buffer decodes to. -/
def Obligations.StepRunsDecoded : Prop :=
  ∀ (s : State) (i : Instr), Ordinary s → s.boot.bootState = .listening → s.boot.lstPhase = .dispatch →
    decode s.cfg.pageSize (s.frame.readList 0 s.cfg.frameSize) = .ok i → step s = exec i (begun s)

/-- 41_dispatcher.md R211, R212, R216, R217, R221: NO_COMMAND, TEST, EXIT and the unrecognised codes clear the command
byte, restart the decoder, and do nothing else. -/
def Obligations.NoActionCommands : Prop :=
  ∀ (s : State) (i : Instr) (f : Frame),
    (i = .noCommand f ∨ i = .test f ∨ i = .exit f ∨ (∃ b, i = .unrecognised06 b f) ∨
      (∃ b, i = .unrecognised08 b f) ∨ (∃ b, i = .unrecognised10 b f) ∨ (∃ b, i = .unrecognised20 b f) ∨
      (∃ b, i = .unrecognised40 b f) ∨ (∃ b, i = .unrecognised80 b f)) →
    exec i s = .next
      { s with
        frame := s.frame.write 0 0#8
        boot.lstPhase := .rx
        dec.ref := s.env.inp.pinIn
        dec.n := 0#5
        dec.acc := 0
        dec.startCnt := 0#16
        dec.bitIdx := 0
        dec.phase := .syncFirst }

/-- 41_dispatcher.md R213, R222, 42_flash_programmer.md R250: PROGRAM of a page below BOOT_START starts a full page
program; every other page index is silently skipped. -/
def Obligations.ProgramCommand : Prop :=
  ∀ (s : State) (f : Frame), s.cfg.wf = true →
    (f.page.toNat < s.cfg.bootStart / s.cfg.pageSize →
      exec (.program f) s = .next
        { s with
          fp.kind := .fullPage
          fp.page := s.cfg.pageSize * f.page.toNat
          fp.phase := .erase
          boot.lstPhase := .progWait }) ∧
    (s.cfg.bootStart / s.cfg.pageSize ≤ f.page.toNat →
      exec (.program f) s = .next
        { s with
          frame := s.frame.write 0 0#8
          boot.lstPhase := .rx
          dec.ref := s.env.inp.pinIn
          dec.n := 0#5
          dec.acc := 0
          dec.startCnt := 0#16
          dec.bitIdx := 0
          dec.phase := .syncFirst })

/-- 41_dispatcher.md R214, 42_flash_programmer.md R265: RUN starts the vector restore: the block is `sev`, low byte
first, at the last PTR_BYTES bytes of the page below BOOT_START. -/
def Obligations.RunCommand : Prop :=
  ∀ (s : State) (f : Frame), s.cfg.wf = true →
    ∃ t, exec (.run f) s = .next t ∧
      t = { s with
            fp.kind := .block
            fp.page := s.cfg.bootStart - s.cfg.pageSize
            fp.blkOff := s.cfg.pageSize - 2
            fp.blkLen := 2
            fp.blk := t.fp.blk
            fp.phase := .read
            boot.lstPhase := .runWait } ∧
      t.fp.blk.read 0 = s.sev.extractLsb' 0 8 ∧ t.fp.blk.read 1 = s.sev.extractLsb' 8 8 ∧
      ∀ a, 2 ≤ a → t.fp.blk.read a = s.fp.blk.read a

/-- 41_dispatcher.md R215, R222: EEPROM_WRITE takes the exact address and at most PAGE_SIZE bytes. -/
def Obligations.EepromWriteCommand : Prop :=
  ∀ (s : State) (f : Frame), ∃ t, exec (.eepromWrite f) s = .next t ∧
    t = { s with
          ee.base := s.cfg.pageSize * f.page.toNat
          ee.n := t.ee.n
          ee.i := 0#16
          boot.lstPhase := .eeWrite } ∧
    t.ee.n.toNat = min f.length.toNat s.cfg.pageSize

/-- 41_dispatcher.md R210 to R217: what every command leaves unchanged in its DISPATCH step: FLASH, the page buffer,
the merge buffer, the payload and the header in the frame buffer, the saved vector, the interrupt enable, the LED, the
hand-off registers and the EEPROM port. -/
def Obligations.CommandFrame : Prop :=
  ∀ (i : Instr) (s t : State), exec i s = .next t →
    t.cfg = s.cfg ∧ t.env = s.env ∧ t.fc = s.fc ∧ t.sev = s.sev ∧ t.sevValid = s.sevValid ∧ t.cpuIe = s.cpuIe ∧
    t.out = s.out ∧ t.eeLog = s.eeLog ∧ t.drawCtr = s.drawCtr ∧ t.stepNo = s.stepNo ∧
    t.boot = { s.boot with lstPhase := t.boot.lstPhase } ∧
    t.dec.tmr = s.dec.tmr ∧ t.dec.delay = s.dec.delay ∧ t.dec.ok = s.dec.ok ∧
    t.fp.m = s.fp.m ∧ t.fp.idx = s.fp.idx ∧ t.fp.savedIe = s.fp.savedIe ∧
    (∀ a, a ≠ 0 → t.frame.read a = s.frame.read a)

/-- 41_dispatcher.md R218, R221: PROG_WAIT. While the programmer is not DONE, it alone acts; then the LED toggles and
the decoder restarts. -/
def Obligations.ProgWait : Prop :=
  ∀ s : State, Ordinary s → s.boot.bootState = .listening → s.boot.lstPhase = .progWait →
    (s.fp.phase ≠ .done → step s = programmerStep (begun s)) ∧
    (s.fp.phase = .done → step s = .next
      { begun s with
        fp.phase := .idle
        boot.led := !s.boot.led
        frame := s.frame.write 0 0#8
        boot.lstPhase := .rx
        dec.ref := (nextInput s).pinIn
        dec.n := 0#5
        dec.acc := 0
        dec.startCnt := 0#16
        dec.bitIdx := 0
        dec.phase := .syncFirst })

/-- 41_dispatcher.md R219, 43_boot_controller.md R306: RUN_WAIT. While the programmer is not DONE, it alone acts; then
the command byte is cleared and the block hands off with the slot's value. -/
def Obligations.RunWait : Prop :=
  ∀ s : State, Inv s → Ordinary s → s.boot.bootState = .listening → s.boot.lstPhase = .runWait →
    (s.fp.phase ≠ .done → step s = programmerStep (begun s)) ∧
    (s.fp.phase = .done → step s = .next
      { begun s with
        fp.phase := .idle
        frame := s.frame.write 0 0#8
        boot.bootState := .runApplication
        boot.appCause := .run
        boot.appEntry := slotValue s
        dec.phase := .idle })

/-- 41_dispatcher.md R220, 43_boot_controller.md R306: EE_WRITE writes one byte per step on the EEPROM port, then clears
the command byte and hands off. The clause that appends the write with its step number to `eeLog`, for the observation
of 70_reset_and_hazards.md R394, is the model's own (log entry 16), and so is that `ee_addr` and `ee_data` hold in the
hand-off step. -/
def Obligations.EeWriteStep : Prop :=
  ∀ s : State, Inv s → Ordinary s → s.boot.bootState = .listening → s.boot.lstPhase = .eeWrite →
    (s.ee.i.toNat < s.ee.n.toNat → ∃ t, step s = .next t ∧
      t = { begun s with
            out.eeWe := true
            out.eeAddr := s.ee.base + s.ee.i.toNat
            out.eeData := s.frame.read (7 + s.ee.i.toNat)
            ee.i := t.ee.i
            eeLog := s.eeLog ++
              [{ step := s.stepNo + 1, addr := s.ee.base + s.ee.i.toNat, data := s.frame.read (7 + s.ee.i.toNat) }] } ∧
      t.ee.i.toNat = s.ee.i.toNat + 1) ∧
    (s.ee.n.toNat ≤ s.ee.i.toNat → step s = .next
      { begun s with
        frame := s.frame.write 0 0#8
        boot.bootState := .runApplication
        boot.appCause := .eeprom
        boot.appEntry := slotValue s
        dec.phase := .idle
        fp.phase := .idle })

/-- 41_dispatcher.md R215, R220, 70_reset_and_hazards.md R391, R394: the whole of EEPROM_WRITE after its DISPATCH. It
writes `ee_n` bytes of the payload to rising addresses, one per step, and hands off in the step after the last, with
FLASH unchanged. The form of the log of writes and the step numbers in it are the model's own (log entry 16). -/
def Obligations.EepromRun : Prop :=
  ∀ s : State, Inv s → Quiet s → s.boot.bootState = .listening → s.boot.lstPhase = .eeWrite → s.ee.i = 0#16 →
    ∃ t, runSteps (s.ee.n.toNat + 1) s = .next t ∧
      t.eeLog = s.eeLog ++ (List.range s.ee.n.toNat).map (fun k =>
        { step := s.stepNo + 1 + k, addr := s.ee.base + k, data := s.frame.read (7 + k) }) ∧
      t.boot.bootState = .runApplication ∧ t.boot.appCause = .eeprom ∧ t.boot.appEntry = slotValue s ∧
      t.fc.flash = s.fc.flash ∧ t.sev = s.sev ∧ t.boot.led = s.boot.led ∧ t.frame.read 0 = 0#8

/-! ## The decoder -/

/-- 40_decoder.md R162: SYNC_FIRST. -/
def Obligations.SyncFirst : Prop :=
  ∀ s : State, Ordinary s → Receiving s → s.dec.phase = .syncFirst →
    step s = .next
      (if (nextInput s).pinIn = s.dec.ref then begun s
       else { begun s with
              dec.ref := (nextInput s).pinIn
              dec.tmr := 0
              dec.n := 0#5
              dec.acc := 0
              dec.phase := .syncMeas })

/-- 40_decoder.md R163, R164: SYNC_MEAS. Only the last 8 of the 16 intervals are summed, the sum is exact, and the
sixteenth edge sets the sample delay. -/
def Obligations.SyncMeas : Prop :=
  ∀ s : State, Inv s → Ordinary s → Receiving s → s.dec.phase = .syncMeas →
    ((nextInput s).pinIn = s.dec.ref → step s = .next (begun s)) ∧
    ((nextInput s).pinIn ≠ s.dec.ref → ∃ t, step s = .next t ∧
      t.dec.acc = (if 8 ≤ s.dec.n.toNat then s.dec.acc + nextTmr s else s.dec.acc) ∧
      t.dec.acc ≤ 8 * (2 ^ s.cfg.timerW - 1) ∧
      t.dec.n.toNat = s.dec.n.toNat + 1 ∧
      (s.dec.n.toNat + 1 = 16 →
        t = { begun s with
              dec.tmr := 0
              dec.ref := (nextInput s).pinIn
              dec.acc := t.dec.acc
              dec.n := t.dec.n
              dec.delay := 3 * t.dec.acc / 32
              dec.startCnt := 0#16
              dec.phase := .startSample }) ∧
      (s.dec.n.toNat + 1 ≠ 16 →
        t = { begun s with
              dec.tmr := 0
              dec.ref := (nextInput s).pinIn
              dec.acc := t.dec.acc
              dec.n := t.dec.n }))

/-- 40_decoder.md R164, 10_state.md R39: the sample delay in one division, and that it fits its register. -/
def Obligations.SampleDelayFits : Prop :=
  ∀ (c : Config) (acc : Nat), sampleDelay acc = 3 * acc / 4 / 8 ∧ 3 * acc / 4 / 8 = 3 * acc / 32 ∧
    (acc ≤ 8 * (2 ^ c.timerW - 1) → sampleDelay acc ≤ 3 * (2 ^ c.timerW - 1) / 4 ∧ sampleDelay acc < 2 ^ c.timerW)

/-- 40_decoder.md R165: START_SAMPLE. -/
def Obligations.StartSample : Prop :=
  ∀ s : State, Ordinary s → Receiving s → s.dec.phase = .startSample →
    step s = .next
      (if nextTmr s < s.dec.delay then begun s
       else if (nextInput s).pinIn = s.dec.ref then { begun s with dec.phase := .startEdge }
       else { begun s with dec.ref := (nextInput s).pinIn, dec.bitIdx := 0, dec.phase := .dataEdge })

/-- 40_decoder.md R166, R167: START_EDGE and DATA_EDGE. -/
def Obligations.CellEdge : Prop :=
  ∀ s : State, Ordinary s → Receiving s →
    (s.dec.phase = .startEdge →
      step s = .next
        (if (nextInput s).pinIn = s.dec.ref then begun s
         else { begun s with
                dec.ref := (nextInput s).pinIn
                dec.tmr := 0
                dec.startCnt := BitVec.ofNat 16 (s.dec.startCnt.toNat + 1)
                dec.phase := .startSample })) ∧
    (s.dec.phase = .dataEdge →
      step s = .next
        (if (nextInput s).pinIn = s.dec.ref then begun s
         else { begun s with dec.ref := (nextInput s).pinIn, dec.tmr := 0, dec.phase := .dataSample }))

/-- 40_decoder.md R168, R169: DATA_SAMPLE assigns one bit of the frame buffer, most significant bit of a byte first,
and the last bit completes the frame. -/
def Obligations.DataSample : Prop :=
  ∀ s : State, Inv s → Ordinary s → Receiving s → s.dec.phase = .dataSample →
    (nextTmr s < s.dec.delay → step s = .next (begun s)) ∧
    (s.dec.delay ≤ nextTmr s → ∃ t, step s = .next t ∧
      (∀ a k, k < 8 → (t.frame.read a).getLsbD k =
        if a = s.dec.bitIdx / 8 ∧ k = 7 - s.dec.bitIdx % 8 then (nextInput s).pinIn != s.dec.ref
        else (s.frame.read a).getLsbD k) ∧
      (s.dec.bitIdx + 1 = s.cfg.frameBits →
        t = { begun s with
              frame := t.frame
              dec.ref := (nextInput s).pinIn
              dec.bitIdx := s.dec.bitIdx + 1
              dec.phase := .idle
              dec.ok := true
              out.frameOk := true
              boot.lstPhase := .dispatch }) ∧
      (s.dec.bitIdx + 1 ≠ s.cfg.frameBits →
        t = { begun s with
              frame := t.frame
              dec.ref := (nextInput s).pinIn
              dec.bitIdx := s.dec.bitIdx + 1
              dec.phase := .dataEdge }))

/-- 40_decoder.md R170: while the pin stays constant in an edge-waiting phase, the block hangs: only the timer and the
step number move, for ever. -/
def Obligations.SilentLineHangs : Prop :=
  ∀ (s : State) (n : Nat), s.cfg.wf = true → Quiet s → Receiving s → edgeWaiting s.dec.phase = true →
    s.env.inp.pinIn = s.dec.ref → s.fc.busyLeft = 0 → s.dec.tmr < 2 ^ s.cfg.timerW →
    s.out.eeWe = false → s.out.frameOk = false →
    runSteps n s = .next { s with dec.tmr := (s.dec.tmr + n) % 2 ^ s.cfg.timerW, stepNo := s.stepNo + n }

/-- 40_decoder.md R171, 00_scope.md R13: in every edge-waiting phase that a step leaves, the reference level is the pin
level of that step. So an edge is exactly a transition of the pin. -/
def Obligations.EdgeIsTransition : Prop :=
  ∀ s t : State, Inv s → step s = .next t → RefIsLastPin t

/-- 30_encoding.md R122: one data cell, whatever its waveform. The bit stored is 1 exactly when the pin changed an odd
number of times in the `max(1, dec_delay)` steps after the cell's first. -/
def Obligations.DataCellParity : Prop :=
  ∀ (s : State) (w : List Bool), Inv s → CalmInputs s → Receiving s → s.dec.phase = .dataEdge →
    s.env.inputs.map (·.pinIn) = (!s.dec.ref) :: w → w.length = max 1 s.dec.delay →
    ∃ t, runSteps (w.length + 1) s = .next t ∧ t.dec.bitIdx = s.dec.bitIdx + 1 ∧
      t.dec.ref = w.getLastD (!s.dec.ref) ∧
      ∀ a k, k < 8 → (t.frame.read a).getLsbD k =
        if a = s.dec.bitIdx / 8 ∧ k = 7 - s.dec.bitIdx % 8 then levelChanges (!s.dec.ref) w % 2 == 1
        else (s.frame.read a).getLsbD k

/-- 40_decoder.md R172, 30_encoding.md R121, R123, 70_reset_and_hazards.md R391: a frame sent by the nominal
transmitter, with any period that the timer can measure and at least 16 preamble cells, is received as sent, and is
complete at the step that R391 gives. -/
def Obligations.NominalFrameDecodes : Prop :=
  ∀ (s : State) (p idle k : Nat) (bytes : List Byte), Inv s → CalmInputs s → Receiving s → s.dec.phase = .syncFirst →
    2 ≤ p → p < 2 ^ s.cfg.timerW → 16 ≤ k → bytes.length = s.cfg.frameSize →
    s.env.inputs.map (·.pinIn) = tx p s.dec.ref idle k bytes →
    ∃ t, runSteps (idle + 1 + (k + s.cfg.frameBits) * p + 3 * p / 4) s = .next t ∧
      t.frame.readList 0 s.cfg.frameSize = bytes ∧ t.boot.bootState = .listening ∧ t.boot.lstPhase = .dispatch ∧
      t.out.frameOk = true ∧ t.dec.acc = 8 * p ∧ t.dec.delay = 3 * p / 4 ∧ t.fc.flash = s.fc.flash

/-- 30_encoding.md R120: the absolute level carries no information. A machine that sees every level inverted does the
same. -/
def Obligations.InvertedSignal : Prop :=
  ∀ s : State, (nextInput s).rst = false → step (invertPin s) = mapNext invertPin (step s)

/-! ## The Flash Programmer -/

/-- 42_flash_programmer.md R263, R264: READ and the merge. -/
def Obligations.ReadAndMerge : Prop :=
  ∀ s : State, Inv s → Ordinary s → s.fp.phase = .read →
    ∃ t, step s = .next t ∧ t = { begun s with fp.m := t.fp.m, fp.phase := .erase } ∧
      ∀ i, i < s.cfg.pageSize → t.fp.m.read i =
        if s.fp.blkOff ≤ i ∧ i < s.fp.blkOff + s.fp.blkLen then s.fp.blk.read (i - s.fp.blkOff)
        else s.fc.flash.read (s.fp.page + i)

/-- 42_flash_programmer.md R252, 20_memory.md R86: ERASE enters the critical section and erases the page. -/
def Obligations.EraseStep : Prop :=
  ∀ s : State, Inv s → Ordinary s → s.fp.phase = .erase → 1 ≤ (nextInput s).fcLat →
    (nextInput s).fcLat ≤ s.cfg.maxErase →
    ∃ t, step s = .next t ∧
      t = { begun s with fp.savedIe := s.cpuIe, cpuIe := false, fp.phase := .eraseWait, fc := t.fc } ∧
      t.fc.pb = s.fc.pb ∧ t.fc.rwwEn = false ∧ t.fc.busyLeft = (nextInput s).fcLat ∧
      ∀ a, t.fc.flash.read a =
        if s.fp.page ≤ a ∧ a < s.fp.page + s.cfg.pageSize then s.cfg.erasedByte else s.fc.flash.read a

/-- 42_flash_programmer.md R253, R257, R259: the three wait phases. -/
def Obligations.WaitPhases : Prop :=
  ∀ s : State, Inv s → Ordinary s →
    (waitsForFlash s.fp.phase = true → nextBusy s → step s = .next (begun s)) ∧
    (s.fp.phase = .eraseWait → ¬nextBusy s → step s = .next { begun s with fp.idx := 0, fp.phase := .fill }) ∧
    (s.fp.phase = .fillWait → ¬nextBusy s → s.fp.idx + 1 = s.cfg.pageWords →
      step s = .next { begun s with fp.phase := .commit }) ∧
    (s.fp.phase = .fillWait → ¬nextBusy s → s.fp.idx + 1 ≠ s.cfg.pageWords →
      step s = .next { begun s with fp.idx := s.fp.idx + 1, fp.phase := .fill }) ∧
    (s.fp.phase = .commitWait → ¬nextBusy s → step s = .next { begun s with fp.phase := .rww })

/-- 42_flash_programmer.md R254, R255, R256, 20_memory.md R87: FILL loads the source word, low byte at the even offset;
in the one case of the page-zero intercept it loads the bootloader jump and captures the saved vector. -/
def Obligations.FillStep : Prop :=
  ∀ s : State, Inv s → Ordinary s → s.fp.phase = .fill → (nextInput s).fcLat ≤ s.cfg.maxFill →
    ∀ src w : Word,
      src = (if s.fp.kind = .fullPage then
          le16 (s.frame.read (7 + 2 * s.fp.idx)) (s.frame.read (8 + 2 * s.fp.idx))
        else le16 (s.fp.m.read (2 * s.fp.idx)) (s.fp.m.read (2 * s.fp.idx + 1))) →
      w = (if s.fp.kind = .fullPage ∧ s.fp.page = 0 ∧ s.fp.idx = 0 then s.cfg.bootJumpWord else src) →
      ∃ t, step s = .next t ∧
        (s.fp.kind = .fullPage ∧ s.fp.page = 0 ∧ s.fp.idx = 0 →
          t = { begun s with sev := src - s.cfg.jumpBase, sevValid := true, fp.phase := .fillWait, fc := t.fc }) ∧
        (¬(s.fp.kind = .fullPage ∧ s.fp.page = 0 ∧ s.fp.idx = 0) →
          t = { begun s with fp.phase := .fillWait, fc := t.fc }) ∧
        t.fc.flash = s.fc.flash ∧ t.fc.rwwEn = s.fc.rwwEn ∧ t.fc.busyLeft = (nextInput s).fcLat ∧
        t.fc.pb.read (2 * s.fp.idx) = w.extractLsb' 0 8 ∧ t.fc.pb.read (2 * s.fp.idx + 1) = w.extractLsb' 8 8 ∧
        ∀ a, a ≠ 2 * s.fp.idx → a ≠ 2 * s.fp.idx + 1 → t.fc.pb.read a = s.fc.pb.read a

/-- 42_flash_programmer.md R258, 20_memory.md R88: COMMIT writes the page buffer into the page. What the page buffer
holds then is a free value, of which nothing is said. -/
def Obligations.CommitStep : Prop :=
  ∀ s : State, Inv s → Ordinary s → s.fp.phase = .commit → 1 ≤ (nextInput s).fcLat →
    (nextInput s).fcLat ≤ s.cfg.maxWrite →
    ∃ t, step s = .next t ∧ t = { begun s with fp.phase := .commitWait, fc := t.fc, drawCtr := t.drawCtr } ∧
      t.fc.rwwEn = false ∧ t.fc.busyLeft = (nextInput s).fcLat ∧
      ∀ a, t.fc.flash.read a =
        if s.fp.page ≤ a ∧ a < s.fp.page + s.cfg.pageSize then s.fc.pb.read (a - s.fp.page) else s.fc.flash.read a

/-- 42_flash_programmer.md R260, R262, 20_memory.md R89: RWW enables flash reads and restores the interrupt enable. -/
def Obligations.RwwStep : Prop :=
  ∀ s : State, Inv s → Ordinary s → s.fp.phase = .rww →
    step s = .next { begun s with fc.rwwEn := true, cpuIe := s.fp.savedIe, fp.phase := .done }

/-- 20_memory.md R84 to R89, 60_exceptions.md R340: a flash operation that is issued while the controller is busy, a
read with flash reads disabled, and a misaligned or out-of-range operand raise FlashProtocolFault, and nothing else
does. Which kind is named where two causes hold is the model's choice (log entry 10); the statement names none. -/
def Obligations.FlashProtocolFaults : Prop :=
  ∀ s : State,
    (∀ a n, (∃ k, fcRead a n s = .error (.flashProtocol k (.read a n))) ↔
      0 < s.fc.busyLeft ∨ s.fc.rwwEn = false ∨ s.cfg.flashSize < a + n) ∧
    (∀ p, (∃ k, fcErase p s = .fault (.flashProtocol k (.erase p))) ↔
      0 < s.fc.busyLeft ∨ p % s.cfg.pageSize ≠ 0 ∨ s.cfg.flashSize ≤ p) ∧
    (∀ off w, (∃ k, fcFill off w s = .fault (.flashProtocol k (.fill off w))) ↔
      0 < s.fc.busyLeft ∨ off % 2 = 1 ∨ s.cfg.pageSize ≤ off) ∧
    (∀ p, (∃ k, fcCommit p s = .fault (.flashProtocol k (.commit p))) ↔
      0 < s.fc.busyLeft ∨ p % s.cfg.pageSize ≠ 0 ∨ s.cfg.flashSize ≤ p) ∧
    ((∃ k, fcRwwEn s = .fault (.flashProtocol k .rwwEn)) ↔ 0 < s.fc.busyLeft)

/-- 42_flash_programmer.md R251: when FP_START_BLOCK faults, and what it does otherwise. -/
def Obligations.BlockStart : Prop :=
  ∀ (s : State) (a : Nat) (bytes : List Byte),
    (bytes.length < 1 ∨ s.cfg.pageSize ≤ bytes.length ∨ s.cfg.pageSize < a % s.cfg.pageSize + bytes.length ∨
        s.cfg.flashSize < a + bytes.length →
      fpStartBlock a bytes s = .fault (.flashProtocol .blockRange (.blockStart a bytes.length))) ∧
    (1 ≤ bytes.length → bytes.length < s.cfg.pageSize → a % s.cfg.pageSize + bytes.length ≤ s.cfg.pageSize →
        a + bytes.length ≤ s.cfg.flashSize →
      ∃ t, fpStartBlock a bytes s = .next t ∧
        t = { s with
              fp.kind := .block
              fp.page := a - a % s.cfg.pageSize
              fp.blkOff := a % s.cfg.pageSize
              fp.blkLen := bytes.length
              fp.blk := t.fp.blk
              fp.phase := .read } ∧
        (∀ j, j < bytes.length → t.fp.blk.read j = bytes.getD j 0#8) ∧
        ∀ j, bytes.length ≤ j → t.fp.blk.read j = s.fp.blk.read j)

/-- 42_flash_programmer.md R266: the full page program of page zero. -/
def Obligations.PageZeroProgram : Prop :=
  ∀ s t : State, s.boot.bootState = .listening → s.boot.lstPhase = .progWait →
    SequenceRun (fpStartFull 0 s) t → t.fp.phase = .done →
    t.sev = le16 (s.frame.read 7) (s.frame.read 8) - s.cfg.jumpBase ∧
    word0 t = s.cfg.bootJumpWord ∧
    (∀ i, 2 ≤ i → i < s.cfg.pageSize → t.fc.flash.read i = s.frame.read (7 + i)) ∧
    SameOutsidePage 0 s t

/-- 42_flash_programmer.md R255, R258, 30_encoding.md R133: the full page program of any other page writes the payload
as it stands and leaves the saved vector alone. -/
def Obligations.OtherPageProgram : Prop :=
  ∀ (s t : State) (p : Nat), s.boot.bootState = .listening → s.boot.lstPhase = .progWait → p ≠ 0 →
    SequenceRun (fpStartFull p s) t → t.fp.phase = .done →
    t.sev = s.sev ∧ t.sevValid = s.sevValid ∧
    (∀ i, i < s.cfg.pageSize → t.fc.flash.read (p + i) = s.frame.read (7 + i)) ∧
    SameOutsidePage p s t

/-- 42_flash_programmer.md R267: the block write round trip. -/
def Obligations.BlockRoundTrip : Prop :=
  ∀ (s u t : State) (a : Nat) (bytes : List Byte), s.boot.bootState = .listening → s.boot.lstPhase = .runWait →
    fpStartBlock a bytes s = .next u → SequenceRun u t → t.fp.phase = .done →
    (∀ j, j < bytes.length → t.fc.flash.read (a + j) = bytes.getD j 0#8) ∧
    (∀ i, i < s.cfg.pageSize → (u.fp.page + i < a ∨ a + bytes.length ≤ u.fp.page + i) →
      t.fc.flash.read (u.fp.page + i) = s.fc.flash.read (u.fp.page + i)) ∧
    SameOutsidePage u.fp.page s t

/-- 42_flash_programmer.md R260, R262: every sequence that reaches DONE leaves the interrupt enable as its ERASE step
found it. -/
def Obligations.InterruptEnableRestored : Prop :=
  ∀ s t : State, s.boot.bootState = .listening → s.boot.lstPhase = .progWait ∨ s.boot.lstPhase = .runWait →
    s.fp.phase = .erase → SequenceRun s t → t.fp.phase = .done → t.cpuIe = s.cpuIe

/-- 20_memory.md R82: the self-preservation invariant, resets included. -/
def Obligations.SelfPreservation : Prop :=
  ∀ s t : State, Inv s → step s = .next t → ∀ a, s.cfg.bootStart ≤ a → t.fc.flash.read a = s.fc.flash.read a

/-- 42_flash_programmer.md R268: the page-zero vector invariant, as `VectorKept` states it for every step. A reset that
interrupts a sequence on page 0 is left out: it leaves any bytes there (20_memory.md R92). -/
def Obligations.VectorInvariant : Prop :=
  ∀ s t : State, Inv s → VectorKept s → step s = .next t →
    ((nextInput s).rst = true → s.fp.page = 0 → s.fp.phase = .idle ∨ s.fp.phase = .done) → VectorKept t

/-- The invariant of the block is kept by every step, resets and the environment's every move included. -/
def Obligations.StepKeepsInv : Prop :=
  ∀ s t : State, Inv s → step s = .next t → Inv t

/-- 60_exceptions.md R340: under the invariant no rule reaches a FlashProtocolFault, and a step is refused only for the
environment's sake: with its duties and the latency bounds met, there is a next state. -/
def Obligations.NoFaultAndProgress : Prop :=
  ∀ s : State, Inv s →
    (∀ e, step s ≠ .fault e) ∧ (Ordinary s → LatencyOk s → ∃ t, step s = .next t)

/-- 20_memory.md R95, 70_reset_and_hazards.md R384: after every hand-off the CPU may fetch from flash. -/
def Obligations.FetchLegalAtHandoff : Prop :=
  ∀ s : State, Inv s → s.boot.bootState = .runApplication → FetchLegal s

/-! ## The Boot Controller -/

/-- 43_boot_controller.md R301, R304, R306: the WAIT_SIGNAL step. -/
def Obligations.WaitSignalStep : Prop :=
  ∀ s : State, Inv s → Ordinary s → s.boot.bootState = .waitSignal →
    ∃ t, step s = .next t ∧
      (s.boot.blinkCnt + 1 = s.cfg.blinkTicks →
        t.boot.blinkCnt = 0 ∧ t.boot.led = !s.boot.led ∧ t.boot.timeoutLeft + 1 = s.boot.timeoutLeft) ∧
      (s.boot.blinkCnt + 1 ≠ s.cfg.blinkTicks →
        t.boot.blinkCnt = s.boot.blinkCnt + 1 ∧ t.boot.led = s.boot.led ∧
        t.boot.timeoutLeft = s.boot.timeoutLeft) ∧
      t.boot.waitRef = (nextInput s).pinIn ∧
      (s.boot.blinkCnt + 1 = s.cfg.blinkTicks ∧ s.boot.timeoutLeft = 1 →
        t = { begun s with
              boot.blinkCnt := t.boot.blinkCnt
              boot.led := t.boot.led
              boot.timeoutLeft := t.boot.timeoutLeft
              boot.waitRef := t.boot.waitRef
              boot.bootState := .runApplication
              boot.appCause := .timeout
              boot.appEntry := slotValue s }) ∧
      (¬(s.boot.blinkCnt + 1 = s.cfg.blinkTicks ∧ s.boot.timeoutLeft = 1) →
        ((nextInput s).pinIn ≠ s.boot.waitRef ∧ s.boot.waitEdgesLeft = 1#2 →
          t = { begun s with
                boot.blinkCnt := t.boot.blinkCnt
                boot.led := t.boot.led
                boot.timeoutLeft := t.boot.timeoutLeft
                boot.waitRef := t.boot.waitRef
                boot.bootState := .listening
                boot.lstPhase := .rx
                dec.ref := (nextInput s).pinIn
                dec.n := 0#5
                dec.acc := 0
                dec.startCnt := 0#16
                dec.bitIdx := 0
                dec.phase := .syncFirst }) ∧
        (¬((nextInput s).pinIn ≠ s.boot.waitRef ∧ s.boot.waitEdgesLeft = 1#2) →
          t = { begun s with
                boot.blinkCnt := t.boot.blinkCnt
                boot.led := t.boot.led
                boot.timeoutLeft := t.boot.timeoutLeft
                boot.waitRef := t.boot.waitRef
                boot.waitEdgesLeft :=
                  if (nextInput s).pinIn = s.boot.waitRef then s.boot.waitEdgesLeft
                  else s.boot.waitEdgesLeft - 1#2 }))

/-- 43_boot_controller.md R303: with a pin that does not change three times, WAIT_SIGNAL lasts exactly
BOOT_TIMEOUT * BLINK_TICKS steps and ends in the timeout hand-off, with nothing written. -/
def Obligations.TimeoutRun : Prop :=
  ∀ s : State, Inv s → CalmInputs s → s.boot.bootState = .waitSignal → s.boot.waitEdgesLeft = 3#2 →
    s.boot.timeoutLeft = s.cfg.bootTimeout → s.boot.blinkCnt = 0 →
    s.env.inputs.length = s.cfg.bootTimeout * s.cfg.blinkTicks →
    levelChanges s.boot.waitRef (s.env.inputs.map (·.pinIn)) < 3 →
    (∀ m, m < s.cfg.bootTimeout * s.cfg.blinkTicks →
      ∃ u, runSteps m s = .next u ∧ u.boot.bootState = .waitSignal) ∧
    ∃ t, runSteps (s.cfg.bootTimeout * s.cfg.blinkTicks) s = .next t ∧ t.boot.bootState = .runApplication ∧
      t.boot.appCause = .timeout ∧ t.boot.appEntry = slotValue s ∧ t.fc.flash = s.fc.flash ∧ t.frame = s.frame ∧
      t.sev = s.sev ∧ t.eeLog = s.eeLog

/-- 43_boot_controller.md R307, R309, 60_exceptions.md R343: the two terminal states. In RUN_APPLICATION no rule of the
block acts; ERROR_HANG blinks and does nothing else. -/
def Obligations.TerminalStates : Prop :=
  ∀ s : State, Ordinary s →
    (s.boot.bootState = .runApplication → step s = .next (begun s)) ∧
    (s.boot.bootState = .errorHang →
      step s = .next
        (if s.boot.blinkCnt + 1 = s.cfg.fastBlinkTicks then
          { begun s with boot.blinkCnt := 0, boot.led := !s.boot.led }
         else { begun s with boot.blinkCnt := s.boot.blinkCnt + 1 }))
end

