-- ==== Sys2Proof/Laws/Decode.lean ====
section
/-! SUPPORT. The byte order of 20_memory.md R90 and the length of an encoded frame. -/

namespace Sys2Proof

/-- `le16` is `hi * 256 + lo` (00_scope.md R9). -/
theorem toNat_le16 (lo hi : Byte) : (le16 lo hi).toNat = hi.toNat * 256 + lo.toNat := by
  have h : (le16 lo hi).toNat = hi.toNat <<< 8 ||| lo.toNat := BitVec.toNat_append hi lo
  rw [h, Nat.shiftLeft_eq, Nat.mul_comm, ← Nat.two_pow_add_eq_or_of_lt lo.isLt, Nat.mul_comm]

theorem toNat_loByte (v : Word) : (loByte v).toNat = v.toNat % 256 := by
  simp [loByte]

theorem toNat_hiByte (v : Word) : (hiByte v).toNat = v.toNat / 256 := by
  have := v.isLt
  simp only [hiByte, BitVec.extractLsb'_toNat, Nat.shiftRight_eq_div_pow]
  omega

@[simp] theorem loByte_le16 (lo hi : Byte) : loByte (le16 lo hi) = lo := by
  have := lo.isLt
  apply BitVec.eq_of_toNat_eq
  rw [toNat_loByte, toNat_le16]
  omega

@[simp] theorem hiByte_le16 (lo hi : Byte) : hiByte (le16 lo hi) = hi := by
  have := lo.isLt
  apply BitVec.eq_of_toNat_eq
  rw [toNat_hiByte, toNat_le16]
  omega

@[simp] theorem le16_loByte_hiByte (v : Word) : le16 (loByte v) (hiByte v) = v := by
  apply BitVec.eq_of_toNat_eq
  rw [toNat_le16, toNat_loByte, toNat_hiByte]
  omega

@[simp] theorem leValue_leBytes (v : Word) : leValue (leBytes v) = v := le16_loByte_hiByte v

@[simp] theorem length_leBytes (v : Word) : (leBytes v).length = 2 := rfl

@[simp] theorem length_encodeFrame (f : Frame) : (encodeFrame f).length = 6 + f.payload.length := by
  simp [encodeFrame]
  omega

@[simp] theorem length_bytesOfNat (n w : Nat) : (bytesOfNat n w).length = n := by
  induction n generalizing w with
  | zero => rfl
  | succ n ih => simp [bytesOfNat, ih]

/-- The bytes of a table row's frame have the frame's length, so that they decode. -/
theorem length_tableFrame (pageSize nbits w : Nat) : (tableFrame pageSize nbits w).length = pageSize + 7 := by
  simp [tableFrame]

end Sys2Proof
end

