-- ==== Sys2Proof/Laws/Memory.lean ====
section
/-! SUPPORT. The laws of the byte arrays: read after write, and that every operation keeps the canonical form and the
bound on addresses. -/

namespace Sys2Proof.Machine

theorem Memory.read_insert (m : Memory) (a b : Nat) (v : Byte) (h : ∀ c ∈ m, c.1 ≠ a) :
    (Memory.insert m a v).read b = if a = b then v else m.read b := by
  induction m with
  | nil => simp [Memory.insert, Memory.read]
  | cons c t ih =>
    have hc : c.1 ≠ a := h c (by simp)
    have ht : ∀ c ∈ t, c.1 ≠ a := fun c hm => h c (by simp [hm])
    unfold Memory.insert
    split
    · simp [Memory.read]
    · simp only [Memory.read, ih ht]
      by_cases hb : a = b
      · subst hb; simp [hc]
      · simp [hb]

theorem Memory.read_remove (m : Memory) (a b : Nat) :
    (m.remove a).read b = if a = b then Memory.background else m.read b := by
  induction m with
  | nil => simp [Memory.remove, Memory.read]
  | cons c t ih =>
    unfold Memory.remove at ih ⊢
    by_cases hc : c.1 = a
    · rw [List.filter_cons_of_neg (by simp [hc]), ih]
      by_cases hb : a = b
      · simp [hb]
      · simp [hb, Memory.read, hc]
    · rw [List.filter_cons_of_pos (by simp [hc])]
      simp only [Memory.read, ih]
      by_cases hb : a = b
      · subst hb; simp [hc]
      · simp [hb]

theorem Memory.not_mem_remove (m : Memory) (a : Nat) : ∀ c ∈ m.remove a, c.1 ≠ a := by
  intro c hc
  simpa using (List.mem_filter.mp hc).2

/-- A read after a write: the value written, and every other byte as before. -/
theorem Memory.read_write (m : Memory) (a b : Nat) (v : Byte) :
    (m.write a v).read b = if a = b then v else m.read b := by
  unfold Memory.write
  split
  · next hv => rw [Memory.read_remove, hv]
  · rw [Memory.read_insert _ _ _ _ (Memory.not_mem_remove m a), Memory.read_remove]
    split <;> simp_all

@[simp] theorem Memory.read_write_same (m : Memory) (a : Nat) (v : Byte) : (m.write a v).read a = v := by
  simp [Memory.read_write]

theorem Memory.read_write_other (m : Memory) {a b : Nat} (v : Byte) (h : a ≠ b) :
    (m.write a v).read b = m.read b := by
  simp [Memory.read_write, h]

/-- A read after a list was written. -/
theorem Memory.read_writeList (bs : List Byte) (m : Memory) (a b : Nat) :
    (m.writeList a bs).read b = if a ≤ b ∧ b < a + bs.length then bs.getD (b - a) 0#8 else m.read b := by
  induction bs generalizing m a with
  | nil => simp [Memory.writeList]
  | cons v bs ih =>
    rw [Memory.writeList, ih, Memory.read_write]
    by_cases h1 : b = a
    · subst h1; simp
    · by_cases h2 : a + 1 ≤ b ∧ b < a + 1 + bs.length
      · have h3 : a ≤ b ∧ b < a + (v :: bs).length := by simp; omega
        have h4 : b - a = b - (a + 1) + 1 := by omega
        rw [if_pos h2, if_pos h3, h4, List.getD_cons_succ]
      · have h3 : ¬ (a ≤ b ∧ b < a + (v :: bs).length) := by simp; omega
        rw [if_neg h2, if_neg h3, if_neg (Ne.symm h1)]

theorem Memory.read_writeList_inside (bs : List Byte) (m : Memory) {a i : Nat} (h : i < bs.length) :
    (m.writeList a bs).read (a + i) = bs[i] := by
  rw [Memory.read_writeList, if_pos (by omega)]
  simp [h]

theorem Memory.read_writeList_outside (bs : List Byte) (m : Memory) {a b : Nat}
    (h : b < a ∨ a + bs.length ≤ b) : (m.writeList a bs).read b = m.read b := by
  rw [Memory.read_writeList, if_neg (by omega)]

@[simp] theorem Memory.length_readList (m : Memory) (a n : Nat) : (m.readList a n).length = n := by
  induction n generalizing a with
  | zero => rfl
  | succ n ih => simp [Memory.readList, ih]

@[simp] theorem Memory.getElem_readList (m : Memory) (a n i : Nat) (h : i < (m.readList a n).length) :
    (m.readList a n)[i] = m.read (a + i) := by
  induction n generalizing a i with
  | zero => simp [Memory.readList] at h
  | succ n ih =>
    cases i with
    | zero => simp [Memory.readList]
    | succ i => simp [Memory.readList, ih, Nat.add_assoc, Nat.add_comm 1 i]

theorem Memory.readList_congr {m m' : Memory} {a n : Nat} (h : ∀ i < n, m.read (a + i) = m'.read (a + i)) :
    m.readList a n = m'.readList a n := by
  apply List.ext_getElem (by simp)
  intro i h1 h2
  simp only [Memory.getElem_readList]
  exact h i (by simpa using h1)

theorem Memory.readList_writeList (m : Memory) (a : Nat) (bs : List Byte) :
    (m.writeList a bs).readList a bs.length = bs := by
  apply List.ext_getElem (by simp)
  intro i h1 h2
  rw [Memory.getElem_readList, Memory.read_writeList_inside _ _ h2]

@[simp] theorem length_drawBytes (k n : Nat) : (drawBytes k n).length = n := by
  induction n generalizing k with
  | zero => rfl
  | succ n ih => simp [drawBytes, ih]

/-! ## The canonical form and the bound on addresses -/

theorem Memory.mem_insert {m : Memory} {a : Nat} {v : Byte} {c : Host.Cell} :
    c ∈ Memory.insert m a v ↔ c = (a, v) ∨ c ∈ m := by
  induction m with
  | nil => simp [Memory.insert]
  | cons d t ih =>
    unfold Memory.insert
    split
    · simp
    · simp only [List.mem_cons, ih]
      tauto

theorem Memory.sorted_insert {m : Memory} {a : Nat} {v : Byte} (hm : m.Pairwise (fun x y => x.1 < y.1))
    (ha : ∀ c ∈ m, c.1 ≠ a) : (Memory.insert m a v).Pairwise (fun x y => x.1 < y.1) := by
  induction m with
  | nil => simp [Memory.insert]
  | cons d t ih =>
    obtain ⟨hd, ht⟩ := List.pairwise_cons.mp hm
    have hda : d.1 ≠ a := ha d (by simp)
    unfold Memory.insert
    split
    · next h =>
      refine List.pairwise_cons.mpr ⟨fun c hc => ?_, hm⟩
      rcases List.mem_cons.mp hc with rfl | hc
      · exact h
      · exact Nat.lt_trans h (hd c hc)
    · next h =>
      refine List.pairwise_cons.mpr ⟨fun c hc => ?_, ih ht (fun c hc => ha c (by simp [hc]))⟩
      rcases Memory.mem_insert.mp hc with rfl | hc
      · show d.1 < a
        omega
      · exact hd c hc

theorem Memory.wf_remove {m : Memory} (a : Nat) (h : m.wf) : (m.remove a).wf :=
  ⟨h.1.sublist List.filter_sublist, fun c hc => h.2 c (List.mem_filter.mp hc).1⟩

/-- A write keeps the canonical form. -/
theorem Memory.wf_write {m : Memory} (a : Nat) (v : Byte) (h : m.wf) : (m.write a v).wf := by
  unfold Memory.write
  split
  · exact Memory.wf_remove a h
  · next hv =>
    have hr := Memory.wf_remove a h
    refine ⟨Memory.sorted_insert hr.1 (Memory.not_mem_remove m a), fun c hc => ?_⟩
    rcases Memory.mem_insert.mp hc with rfl | hc
    · exact hv
    · exact hr.2 c hc

theorem Memory.wf_writeList {m : Memory} (bs : List Byte) (a : Nat) (h : m.wf) : (m.writeList a bs).wf := by
  induction bs generalizing m a with
  | nil => exact h
  | cons v bs ih => exact ih (a + 1) (Memory.wf_write a v h)

theorem Memory.wf_nil : Memory.wf [] := by decide

/-- A write below a bound keeps the bound on addresses. -/
theorem Memory.bound_write {m : Memory} {a n : Nat} (v : Byte) (hm : ∀ c ∈ m, c.1 < n) (ha : a < n) :
    ∀ c ∈ m.write a v, c.1 < n := by
  intro c hc
  unfold Memory.write at hc
  split at hc
  · exact hm c (List.mem_filter.mp hc).1
  · rcases Memory.mem_insert.mp hc with rfl | hc
    · exact ha
    · exact hm c (List.mem_filter.mp hc).1

theorem Memory.bound_writeList {m : Memory} {n : Nat} (bs : List Byte) (a : Nat) (hm : ∀ c ∈ m, c.1 < n)
    (ha : a + bs.length ≤ n) : ∀ c ∈ m.writeList a bs, c.1 < n := by
  induction bs generalizing m a with
  | nil => exact hm
  | cons v bs ih =>
    simp only [List.length_cons] at ha
    exact ih (a + 1) (Memory.bound_write v hm (by omega)) (by omega)

theorem Memory.read_of_sorted {m : Memory} {c : Host.Cell} (h : m.Pairwise (fun x y => x.1 < y.1)) (hc : c ∈ m) :
    m.read c.1 = c.2 := by
  induction m with
  | nil => simp at hc
  | cons d t ih =>
    obtain ⟨hd, ht⟩ := List.pairwise_cons.mp h
    rcases List.mem_cons.mp hc with rfl | hc
    · simp [Memory.read]
    · have := hd c hc
      rw [Memory.read, if_neg (by omega), ih ht hc]

theorem Memory.read_of_not_mem {m : Memory} {a : Nat} (h : ∀ c ∈ m, c.1 ≠ a) : m.read a = Memory.background := by
  induction m with
  | nil => rfl
  | cons d t ih =>
    rw [Memory.read, if_neg (h d (by simp)), ih (fun c hc => h c (by simp [hc]))]

/-- Equal memories are equal data: two canonical arrays that read the same everywhere are the same list. -/
theorem Memory.eq_of_read_eq {m m' : Memory} (h : m.wf) (h' : m'.wf) (he : ∀ a, m.read a = m'.read a) : m = m' := by
  have key : ∀ {x y : Memory}, x.wf → y.wf → (∀ a, x.read a = y.read a) → ∀ c ∈ x, c ∈ y := by
    intro x y hx hy hxy c hc
    have h1 : y.read c.1 = c.2 := by rw [← hxy, Memory.read_of_sorted hx.1 hc]
    by_contra hn
    have h2 : y.read c.1 = Memory.background := by
      by_cases hk : ∃ d ∈ y, d.1 = c.1
      · obtain ⟨d, hd, hdc⟩ := hk
        have h3 := Memory.read_of_sorted hy.1 hd
        rw [hdc, h1] at h3
        exact absurd (by rw [show c = d from Prod.ext hdc.symm h3]; exact hd) hn
      · exact Memory.read_of_not_mem (fun d hd hdc => hk ⟨d, hd, hdc⟩)
    exact hx.2 c hc (h1.symm.trans h2)
  have nodup : ∀ {x : Memory}, x.wf → x.Nodup := fun hx => hx.1.imp (fun hlt heq => by rw [heq] at hlt; omega)
  have hp : m.Perm m' := (List.perm_ext_iff_of_nodup (nodup h) (nodup h')).mpr
    (fun c => ⟨key h h' he c, key h' h (fun a => (he a).symm) c⟩)
  exact hp.eq_of_pairwise (fun a b _ _ hab hba => by omega) h.1 h'.1

end Sys2Proof.Machine
end

