-- ==== Sys2Proof/Laws/State.lean ====
section
/-! SUPPORT. What each update of the state does to each field, one lemma per field: no later proof unfolds a record
update. -/

namespace Sys2Proof.Machine

variable (s : State)

/-! ## tick -/

@[simp] theorem tick_cfg : (tick s).cfg = s.cfg := rfl
@[simp] theorem tick_env : (tick s).env = s.env := rfl
@[simp] theorem tick_boot : (tick s).boot = s.boot := rfl
@[simp] theorem tick_dec_tmr : (tick s).dec.tmr = (s.dec.tmr + 1) % 2 ^ s.cfg.timerW := rfl
@[simp] theorem tick_dec_phase : (tick s).dec.phase = s.dec.phase := rfl
@[simp] theorem tick_dec_ref : (tick s).dec.ref = s.dec.ref := rfl
@[simp] theorem tick_dec_n : (tick s).dec.n = s.dec.n := rfl
@[simp] theorem tick_dec_acc : (tick s).dec.acc = s.dec.acc := rfl
@[simp] theorem tick_dec_delay : (tick s).dec.delay = s.dec.delay := rfl
@[simp] theorem tick_dec_startCnt : (tick s).dec.startCnt = s.dec.startCnt := rfl
@[simp] theorem tick_dec_bitIdx : (tick s).dec.bitIdx = s.dec.bitIdx := rfl
@[simp] theorem tick_dec_ok : (tick s).dec.ok = s.dec.ok := rfl
@[simp] theorem tick_frame : (tick s).frame = s.frame := rfl
@[simp] theorem tick_ee : (tick s).ee = s.ee := rfl
@[simp] theorem tick_fp : (tick s).fp = s.fp := rfl
@[simp] theorem tick_sev : (tick s).sev = s.sev := rfl
@[simp] theorem tick_sevValid : (tick s).sevValid = s.sevValid := rfl
@[simp] theorem tick_fc_flash : (tick s).fc.flash = s.fc.flash := rfl
@[simp] theorem tick_fc_pb : (tick s).fc.pb = s.fc.pb := rfl
@[simp] theorem tick_fc_busyLeft : (tick s).fc.busyLeft = s.fc.busyLeft - 1 := rfl
@[simp] theorem tick_fc_rwwEn : (tick s).fc.rwwEn = s.fc.rwwEn := rfl
@[simp] theorem tick_fc_erased : (tick s).fc.erased = s.fc.erased := rfl
@[simp] theorem tick_fc_filled : (tick s).fc.filled = s.fc.filled := rfl
@[simp] theorem tick_cpuIe : (tick s).cpuIe = s.env.inp.cpuIe.getD s.cpuIe := rfl
@[simp] theorem tick_out_eeWe : (tick s).out.eeWe = false := rfl
@[simp] theorem tick_out_eeAddr : (tick s).out.eeAddr = s.out.eeAddr := rfl
@[simp] theorem tick_out_eeData : (tick s).out.eeData = s.out.eeData := rfl
@[simp] theorem tick_out_frameOk : (tick s).out.frameOk = false := rfl
@[simp] theorem tick_eeLog : (tick s).eeLog = s.eeLog := rfl
@[simp] theorem tick_stepNo : (tick s).stepNo = s.stepNo + 1 := rfl
@[simp] theorem tick_drawCtr : (tick s).drawCtr = s.drawCtr := rfl

/-! ## captureRef -/

@[simp] theorem captureRef_cfg : (captureRef s).cfg = s.cfg := rfl
@[simp] theorem captureRef_env : (captureRef s).env = s.env := rfl
@[simp] theorem captureRef_boot : (captureRef s).boot = s.boot := rfl
@[simp] theorem captureRef_dec_tmr : (captureRef s).dec.tmr = s.dec.tmr := rfl
@[simp] theorem captureRef_dec_phase : (captureRef s).dec.phase = s.dec.phase := rfl
@[simp] theorem captureRef_dec_ref : (captureRef s).dec.ref = s.env.inp.pinIn := rfl
@[simp] theorem captureRef_dec_n : (captureRef s).dec.n = s.dec.n := rfl
@[simp] theorem captureRef_dec_acc : (captureRef s).dec.acc = s.dec.acc := rfl
@[simp] theorem captureRef_dec_delay : (captureRef s).dec.delay = s.dec.delay := rfl
@[simp] theorem captureRef_dec_startCnt : (captureRef s).dec.startCnt = s.dec.startCnt := rfl
@[simp] theorem captureRef_dec_bitIdx : (captureRef s).dec.bitIdx = s.dec.bitIdx := rfl
@[simp] theorem captureRef_dec_ok : (captureRef s).dec.ok = s.dec.ok := rfl
@[simp] theorem captureRef_frame : (captureRef s).frame = s.frame := rfl
@[simp] theorem captureRef_ee : (captureRef s).ee = s.ee := rfl
@[simp] theorem captureRef_fp : (captureRef s).fp = s.fp := rfl
@[simp] theorem captureRef_sev : (captureRef s).sev = s.sev := rfl
@[simp] theorem captureRef_sevValid : (captureRef s).sevValid = s.sevValid := rfl
@[simp] theorem captureRef_fc : (captureRef s).fc = s.fc := rfl
@[simp] theorem captureRef_cpuIe : (captureRef s).cpuIe = s.cpuIe := rfl
@[simp] theorem captureRef_out : (captureRef s).out = s.out := rfl
@[simp] theorem captureRef_eeLog : (captureRef s).eeLog = s.eeLog := rfl
@[simp] theorem captureRef_stepNo : (captureRef s).stepNo = s.stepNo := rfl
@[simp] theorem captureRef_drawCtr : (captureRef s).drawCtr = s.drawCtr := rfl

/-! ## storeBit -/

@[simp] theorem storeBit_cfg (i : Nat) (b : Bool) : (storeBit s i b).cfg = s.cfg := rfl
@[simp] theorem storeBit_env (i : Nat) (b : Bool) : (storeBit s i b).env = s.env := rfl
@[simp] theorem storeBit_boot (i : Nat) (b : Bool) : (storeBit s i b).boot = s.boot := rfl
@[simp] theorem storeBit_dec (i : Nat) (b : Bool) : (storeBit s i b).dec = s.dec := rfl
@[simp] theorem storeBit_frame (i : Nat) (b : Bool) : (storeBit s i b).frame =
    s.frame.write (i / 8) (setBit (s.frame.read (i / 8)) (7 - i % 8) b) := rfl
@[simp] theorem storeBit_ee (i : Nat) (b : Bool) : (storeBit s i b).ee = s.ee := rfl
@[simp] theorem storeBit_fp (i : Nat) (b : Bool) : (storeBit s i b).fp = s.fp := rfl
@[simp] theorem storeBit_sev (i : Nat) (b : Bool) : (storeBit s i b).sev = s.sev := rfl
@[simp] theorem storeBit_sevValid (i : Nat) (b : Bool) : (storeBit s i b).sevValid = s.sevValid := rfl
@[simp] theorem storeBit_fc (i : Nat) (b : Bool) : (storeBit s i b).fc = s.fc := rfl
@[simp] theorem storeBit_cpuIe (i : Nat) (b : Bool) : (storeBit s i b).cpuIe = s.cpuIe := rfl
@[simp] theorem storeBit_out (i : Nat) (b : Bool) : (storeBit s i b).out = s.out := rfl
@[simp] theorem storeBit_eeLog (i : Nat) (b : Bool) : (storeBit s i b).eeLog = s.eeLog := rfl
@[simp] theorem storeBit_stepNo (i : Nat) (b : Bool) : (storeBit s i b).stepNo = s.stepNo := rfl
@[simp] theorem storeBit_drawCtr (i : Nat) (b : Bool) : (storeBit s i b).drawCtr = s.drawCtr := rfl

/-! ## decStart -/

@[simp] theorem decStart_cfg : (decStart s).cfg = s.cfg := rfl
@[simp] theorem decStart_env : (decStart s).env = s.env := rfl
@[simp] theorem decStart_boot : (decStart s).boot = s.boot := rfl
@[simp] theorem decStart_dec_tmr : (decStart s).dec.tmr = s.dec.tmr := rfl
@[simp] theorem decStart_dec_phase : (decStart s).dec.phase = .syncFirst := rfl
@[simp] theorem decStart_dec_ref : (decStart s).dec.ref = s.env.inp.pinIn := rfl
@[simp] theorem decStart_dec_n : (decStart s).dec.n = 0#5 := rfl
@[simp] theorem decStart_dec_acc : (decStart s).dec.acc = 0 := rfl
@[simp] theorem decStart_dec_delay : (decStart s).dec.delay = s.dec.delay := rfl
@[simp] theorem decStart_dec_startCnt : (decStart s).dec.startCnt = 0#16 := rfl
@[simp] theorem decStart_dec_bitIdx : (decStart s).dec.bitIdx = 0 := rfl
@[simp] theorem decStart_dec_ok : (decStart s).dec.ok = s.dec.ok := rfl
@[simp] theorem decStart_frame : (decStart s).frame = s.frame := rfl
@[simp] theorem decStart_ee : (decStart s).ee = s.ee := rfl
@[simp] theorem decStart_fp : (decStart s).fp = s.fp := rfl
@[simp] theorem decStart_sev : (decStart s).sev = s.sev := rfl
@[simp] theorem decStart_sevValid : (decStart s).sevValid = s.sevValid := rfl
@[simp] theorem decStart_fc : (decStart s).fc = s.fc := rfl
@[simp] theorem decStart_cpuIe : (decStart s).cpuIe = s.cpuIe := rfl
@[simp] theorem decStart_out : (decStart s).out = s.out := rfl
@[simp] theorem decStart_eeLog : (decStart s).eeLog = s.eeLog := rfl
@[simp] theorem decStart_stepNo : (decStart s).stepNo = s.stepNo := rfl
@[simp] theorem decStart_drawCtr : (decStart s).drawCtr = s.drawCtr := rfl

/-! ## clearCommand -/

@[simp] theorem clearCommand_cfg : (clearCommand s).cfg = s.cfg := rfl
@[simp] theorem clearCommand_env : (clearCommand s).env = s.env := rfl
@[simp] theorem clearCommand_boot : (clearCommand s).boot = s.boot := rfl
@[simp] theorem clearCommand_dec : (clearCommand s).dec = s.dec := rfl
@[simp] theorem clearCommand_frame : (clearCommand s).frame = s.frame.write 0 0#8 := rfl
@[simp] theorem clearCommand_ee : (clearCommand s).ee = s.ee := rfl
@[simp] theorem clearCommand_fp : (clearCommand s).fp = s.fp := rfl
@[simp] theorem clearCommand_sev : (clearCommand s).sev = s.sev := rfl
@[simp] theorem clearCommand_sevValid : (clearCommand s).sevValid = s.sevValid := rfl
@[simp] theorem clearCommand_fc : (clearCommand s).fc = s.fc := rfl
@[simp] theorem clearCommand_cpuIe : (clearCommand s).cpuIe = s.cpuIe := rfl
@[simp] theorem clearCommand_out : (clearCommand s).out = s.out := rfl
@[simp] theorem clearCommand_eeLog : (clearCommand s).eeLog = s.eeLog := rfl
@[simp] theorem clearCommand_stepNo : (clearCommand s).stepNo = s.stepNo := rfl
@[simp] theorem clearCommand_drawCtr : (clearCommand s).drawCtr = s.drawCtr := rfl

/-! ## dispatchEnd -/

@[simp] theorem dispatchEnd_cfg : (dispatchEnd s).cfg = s.cfg := rfl
@[simp] theorem dispatchEnd_env : (dispatchEnd s).env = s.env := rfl
@[simp] theorem dispatchEnd_boot_bootState : (dispatchEnd s).boot.bootState = s.boot.bootState := rfl
@[simp] theorem dispatchEnd_boot_lstPhase : (dispatchEnd s).boot.lstPhase = .rx := rfl
@[simp] theorem dispatchEnd_boot_waitRef : (dispatchEnd s).boot.waitRef = s.boot.waitRef := rfl
@[simp] theorem dispatchEnd_boot_waitEdgesLeft : (dispatchEnd s).boot.waitEdgesLeft = s.boot.waitEdgesLeft := rfl
@[simp] theorem dispatchEnd_boot_timeoutLeft : (dispatchEnd s).boot.timeoutLeft = s.boot.timeoutLeft := rfl
@[simp] theorem dispatchEnd_boot_blinkCnt : (dispatchEnd s).boot.blinkCnt = s.boot.blinkCnt := rfl
@[simp] theorem dispatchEnd_boot_led : (dispatchEnd s).boot.led = s.boot.led := rfl
@[simp] theorem dispatchEnd_boot_appCause : (dispatchEnd s).boot.appCause = s.boot.appCause := rfl
@[simp] theorem dispatchEnd_boot_appEntry : (dispatchEnd s).boot.appEntry = s.boot.appEntry := rfl
@[simp] theorem dispatchEnd_dec_tmr : (dispatchEnd s).dec.tmr = s.dec.tmr := rfl
@[simp] theorem dispatchEnd_dec_phase : (dispatchEnd s).dec.phase = .syncFirst := rfl
@[simp] theorem dispatchEnd_dec_ref : (dispatchEnd s).dec.ref = s.env.inp.pinIn := rfl
@[simp] theorem dispatchEnd_dec_n : (dispatchEnd s).dec.n = 0#5 := rfl
@[simp] theorem dispatchEnd_dec_acc : (dispatchEnd s).dec.acc = 0 := rfl
@[simp] theorem dispatchEnd_dec_delay : (dispatchEnd s).dec.delay = s.dec.delay := rfl
@[simp] theorem dispatchEnd_dec_startCnt : (dispatchEnd s).dec.startCnt = 0#16 := rfl
@[simp] theorem dispatchEnd_dec_bitIdx : (dispatchEnd s).dec.bitIdx = 0 := rfl
@[simp] theorem dispatchEnd_dec_ok : (dispatchEnd s).dec.ok = s.dec.ok := rfl
@[simp] theorem dispatchEnd_frame : (dispatchEnd s).frame = s.frame.write 0 0#8 := rfl
@[simp] theorem dispatchEnd_ee : (dispatchEnd s).ee = s.ee := rfl
@[simp] theorem dispatchEnd_fp : (dispatchEnd s).fp = s.fp := rfl
@[simp] theorem dispatchEnd_sev : (dispatchEnd s).sev = s.sev := rfl
@[simp] theorem dispatchEnd_sevValid : (dispatchEnd s).sevValid = s.sevValid := rfl
@[simp] theorem dispatchEnd_fc : (dispatchEnd s).fc = s.fc := rfl
@[simp] theorem dispatchEnd_cpuIe : (dispatchEnd s).cpuIe = s.cpuIe := rfl
@[simp] theorem dispatchEnd_out : (dispatchEnd s).out = s.out := rfl
@[simp] theorem dispatchEnd_eeLog : (dispatchEnd s).eeLog = s.eeLog := rfl
@[simp] theorem dispatchEnd_stepNo : (dispatchEnd s).stepNo = s.stepNo := rfl
@[simp] theorem dispatchEnd_drawCtr : (dispatchEnd s).drawCtr = s.drawCtr := rfl

/-! ## enterListening -/

@[simp] theorem enterListening_cfg : (enterListening s).cfg = s.cfg := rfl
@[simp] theorem enterListening_env : (enterListening s).env = s.env := rfl
@[simp] theorem enterListening_boot_bootState : (enterListening s).boot.bootState = .listening := rfl
@[simp] theorem enterListening_boot_lstPhase : (enterListening s).boot.lstPhase = .rx := rfl
@[simp] theorem enterListening_boot_waitRef : (enterListening s).boot.waitRef = s.boot.waitRef := rfl
@[simp] theorem enterListening_boot_waitEdgesLeft : (enterListening s).boot.waitEdgesLeft =
    s.boot.waitEdgesLeft := rfl
@[simp] theorem enterListening_boot_timeoutLeft : (enterListening s).boot.timeoutLeft = s.boot.timeoutLeft := rfl
@[simp] theorem enterListening_boot_blinkCnt : (enterListening s).boot.blinkCnt = s.boot.blinkCnt := rfl
@[simp] theorem enterListening_boot_led : (enterListening s).boot.led = s.boot.led := rfl
@[simp] theorem enterListening_boot_appCause : (enterListening s).boot.appCause = s.boot.appCause := rfl
@[simp] theorem enterListening_boot_appEntry : (enterListening s).boot.appEntry = s.boot.appEntry := rfl
@[simp] theorem enterListening_dec_tmr : (enterListening s).dec.tmr = s.dec.tmr := rfl
@[simp] theorem enterListening_dec_phase : (enterListening s).dec.phase = .syncFirst := rfl
@[simp] theorem enterListening_dec_ref : (enterListening s).dec.ref = s.env.inp.pinIn := rfl
@[simp] theorem enterListening_dec_n : (enterListening s).dec.n = 0#5 := rfl
@[simp] theorem enterListening_dec_acc : (enterListening s).dec.acc = 0 := rfl
@[simp] theorem enterListening_dec_delay : (enterListening s).dec.delay = s.dec.delay := rfl
@[simp] theorem enterListening_dec_startCnt : (enterListening s).dec.startCnt = 0#16 := rfl
@[simp] theorem enterListening_dec_bitIdx : (enterListening s).dec.bitIdx = 0 := rfl
@[simp] theorem enterListening_dec_ok : (enterListening s).dec.ok = s.dec.ok := rfl
@[simp] theorem enterListening_frame : (enterListening s).frame = s.frame := rfl
@[simp] theorem enterListening_ee : (enterListening s).ee = s.ee := rfl
@[simp] theorem enterListening_fp : (enterListening s).fp = s.fp := rfl
@[simp] theorem enterListening_sev : (enterListening s).sev = s.sev := rfl
@[simp] theorem enterListening_sevValid : (enterListening s).sevValid = s.sevValid := rfl
@[simp] theorem enterListening_fc : (enterListening s).fc = s.fc := rfl
@[simp] theorem enterListening_cpuIe : (enterListening s).cpuIe = s.cpuIe := rfl
@[simp] theorem enterListening_out : (enterListening s).out = s.out := rfl
@[simp] theorem enterListening_eeLog : (enterListening s).eeLog = s.eeLog := rfl
@[simp] theorem enterListening_stepNo : (enterListening s).stepNo = s.stepNo := rfl
@[simp] theorem enterListening_drawCtr : (enterListening s).drawCtr = s.drawCtr := rfl

/-! ## toggleLed -/

@[simp] theorem toggleLed_cfg : (toggleLed s).cfg = s.cfg := rfl
@[simp] theorem toggleLed_env : (toggleLed s).env = s.env := rfl
@[simp] theorem toggleLed_boot_bootState : (toggleLed s).boot.bootState = s.boot.bootState := rfl
@[simp] theorem toggleLed_boot_lstPhase : (toggleLed s).boot.lstPhase = s.boot.lstPhase := rfl
@[simp] theorem toggleLed_boot_waitRef : (toggleLed s).boot.waitRef = s.boot.waitRef := rfl
@[simp] theorem toggleLed_boot_waitEdgesLeft : (toggleLed s).boot.waitEdgesLeft = s.boot.waitEdgesLeft := rfl
@[simp] theorem toggleLed_boot_timeoutLeft : (toggleLed s).boot.timeoutLeft = s.boot.timeoutLeft := rfl
@[simp] theorem toggleLed_boot_blinkCnt : (toggleLed s).boot.blinkCnt = s.boot.blinkCnt := rfl
@[simp] theorem toggleLed_boot_led : (toggleLed s).boot.led = !s.boot.led := rfl
@[simp] theorem toggleLed_boot_appCause : (toggleLed s).boot.appCause = s.boot.appCause := rfl
@[simp] theorem toggleLed_boot_appEntry : (toggleLed s).boot.appEntry = s.boot.appEntry := rfl
@[simp] theorem toggleLed_dec : (toggleLed s).dec = s.dec := rfl
@[simp] theorem toggleLed_frame : (toggleLed s).frame = s.frame := rfl
@[simp] theorem toggleLed_ee : (toggleLed s).ee = s.ee := rfl
@[simp] theorem toggleLed_fp : (toggleLed s).fp = s.fp := rfl
@[simp] theorem toggleLed_sev : (toggleLed s).sev = s.sev := rfl
@[simp] theorem toggleLed_sevValid : (toggleLed s).sevValid = s.sevValid := rfl
@[simp] theorem toggleLed_fc : (toggleLed s).fc = s.fc := rfl
@[simp] theorem toggleLed_cpuIe : (toggleLed s).cpuIe = s.cpuIe := rfl
@[simp] theorem toggleLed_out : (toggleLed s).out = s.out := rfl
@[simp] theorem toggleLed_eeLog : (toggleLed s).eeLog = s.eeLog := rfl
@[simp] theorem toggleLed_stepNo : (toggleLed s).stepNo = s.stepNo := rfl
@[simp] theorem toggleLed_drawCtr : (toggleLed s).drawCtr = s.drawCtr := rfl

/-! ## waitSchedule -/

@[simp] theorem waitSchedule_cfg : (waitSchedule s).cfg = s.cfg := rfl
@[simp] theorem waitSchedule_env : (waitSchedule s).env = s.env := rfl
@[simp] theorem waitSchedule_boot_bootState : (waitSchedule s).boot.bootState = s.boot.bootState := rfl
@[simp] theorem waitSchedule_boot_lstPhase : (waitSchedule s).boot.lstPhase = s.boot.lstPhase := rfl
@[simp] theorem waitSchedule_boot_waitRef : (waitSchedule s).boot.waitRef =
    if waitEdge s then s.env.inp.pinIn else s.boot.waitRef := rfl
@[simp] theorem waitSchedule_boot_waitEdgesLeft : (waitSchedule s).boot.waitEdgesLeft = s.boot.waitEdgesLeft := rfl
@[simp] theorem waitSchedule_boot_timeoutLeft : (waitSchedule s).boot.timeoutLeft =
    if blinkTick s then s.boot.timeoutLeft - 1 else s.boot.timeoutLeft := rfl
@[simp] theorem waitSchedule_boot_blinkCnt : (waitSchedule s).boot.blinkCnt =
    if blinkTick s then 0 else s.boot.blinkCnt + 1 := rfl
@[simp] theorem waitSchedule_boot_led : (waitSchedule s).boot.led =
    if blinkTick s then !s.boot.led else s.boot.led := rfl
@[simp] theorem waitSchedule_boot_appCause : (waitSchedule s).boot.appCause = s.boot.appCause := rfl
@[simp] theorem waitSchedule_boot_appEntry : (waitSchedule s).boot.appEntry = s.boot.appEntry := rfl
@[simp] theorem waitSchedule_dec : (waitSchedule s).dec = s.dec := rfl
@[simp] theorem waitSchedule_frame : (waitSchedule s).frame = s.frame := rfl
@[simp] theorem waitSchedule_ee : (waitSchedule s).ee = s.ee := rfl
@[simp] theorem waitSchedule_fp : (waitSchedule s).fp = s.fp := rfl
@[simp] theorem waitSchedule_sev : (waitSchedule s).sev = s.sev := rfl
@[simp] theorem waitSchedule_sevValid : (waitSchedule s).sevValid = s.sevValid := rfl
@[simp] theorem waitSchedule_fc : (waitSchedule s).fc = s.fc := rfl
@[simp] theorem waitSchedule_cpuIe : (waitSchedule s).cpuIe = s.cpuIe := rfl
@[simp] theorem waitSchedule_out : (waitSchedule s).out = s.out := rfl
@[simp] theorem waitSchedule_eeLog : (waitSchedule s).eeLog = s.eeLog := rfl
@[simp] theorem waitSchedule_stepNo : (waitSchedule s).stepNo = s.stepNo := rfl
@[simp] theorem waitSchedule_drawCtr : (waitSchedule s).drawCtr = s.drawCtr := rfl

/-! ## fpStartFull -/

@[simp] theorem fpStartFull_cfg (addr : Nat) : (fpStartFull addr s).cfg = s.cfg := rfl
@[simp] theorem fpStartFull_env (addr : Nat) : (fpStartFull addr s).env = s.env := rfl
@[simp] theorem fpStartFull_boot (addr : Nat) : (fpStartFull addr s).boot = s.boot := rfl
@[simp] theorem fpStartFull_dec (addr : Nat) : (fpStartFull addr s).dec = s.dec := rfl
@[simp] theorem fpStartFull_frame (addr : Nat) : (fpStartFull addr s).frame = s.frame := rfl
@[simp] theorem fpStartFull_ee (addr : Nat) : (fpStartFull addr s).ee = s.ee := rfl
@[simp] theorem fpStartFull_fp_phase (addr : Nat) : (fpStartFull addr s).fp.phase = .erase := rfl
@[simp] theorem fpStartFull_fp_kind (addr : Nat) : (fpStartFull addr s).fp.kind = .fullPage := rfl
@[simp] theorem fpStartFull_fp_page (addr : Nat) : (fpStartFull addr s).fp.page = addr := rfl
@[simp] theorem fpStartFull_fp_idx (addr : Nat) : (fpStartFull addr s).fp.idx = s.fp.idx := rfl
@[simp] theorem fpStartFull_fp_savedIe (addr : Nat) : (fpStartFull addr s).fp.savedIe = s.fp.savedIe := rfl
@[simp] theorem fpStartFull_fp_blkOff (addr : Nat) : (fpStartFull addr s).fp.blkOff = s.fp.blkOff := rfl
@[simp] theorem fpStartFull_fp_blkLen (addr : Nat) : (fpStartFull addr s).fp.blkLen = s.fp.blkLen := rfl
@[simp] theorem fpStartFull_fp_blk (addr : Nat) : (fpStartFull addr s).fp.blk = s.fp.blk := rfl
@[simp] theorem fpStartFull_fp_m (addr : Nat) : (fpStartFull addr s).fp.m = s.fp.m := rfl
@[simp] theorem fpStartFull_sev (addr : Nat) : (fpStartFull addr s).sev = s.sev := rfl
@[simp] theorem fpStartFull_sevValid (addr : Nat) : (fpStartFull addr s).sevValid = s.sevValid := rfl
@[simp] theorem fpStartFull_fc (addr : Nat) : (fpStartFull addr s).fc = s.fc := rfl
@[simp] theorem fpStartFull_cpuIe (addr : Nat) : (fpStartFull addr s).cpuIe = s.cpuIe := rfl
@[simp] theorem fpStartFull_out (addr : Nat) : (fpStartFull addr s).out = s.out := rfl
@[simp] theorem fpStartFull_eeLog (addr : Nat) : (fpStartFull addr s).eeLog = s.eeLog := rfl
@[simp] theorem fpStartFull_stepNo (addr : Nat) : (fpStartFull addr s).stepNo = s.stepNo := rfl
@[simp] theorem fpStartFull_drawCtr (addr : Nat) : (fpStartFull addr s).drawCtr = s.drawCtr := rfl

/-! ## sampleInputs -/

@[simp] theorem sampleInputs_cfg : (sampleInputs s).cfg = s.cfg := by unfold sampleInputs; split <;> rfl
@[simp] theorem sampleInputs_boot : (sampleInputs s).boot = s.boot := by unfold sampleInputs; split <;> rfl
@[simp] theorem sampleInputs_dec : (sampleInputs s).dec = s.dec := by unfold sampleInputs; split <;> rfl
@[simp] theorem sampleInputs_frame : (sampleInputs s).frame = s.frame := by unfold sampleInputs; split <;> rfl
@[simp] theorem sampleInputs_ee : (sampleInputs s).ee = s.ee := by unfold sampleInputs; split <;> rfl
@[simp] theorem sampleInputs_fp : (sampleInputs s).fp = s.fp := by unfold sampleInputs; split <;> rfl
@[simp] theorem sampleInputs_sev : (sampleInputs s).sev = s.sev := by unfold sampleInputs; split <;> rfl
@[simp] theorem sampleInputs_sevValid : (sampleInputs s).sevValid = s.sevValid := by unfold sampleInputs; split <;> rfl
@[simp] theorem sampleInputs_fc : (sampleInputs s).fc = s.fc := by unfold sampleInputs; split <;> rfl
@[simp] theorem sampleInputs_cpuIe : (sampleInputs s).cpuIe = s.cpuIe := by unfold sampleInputs; split <;> rfl
@[simp] theorem sampleInputs_out : (sampleInputs s).out = s.out := by unfold sampleInputs; split <;> rfl
@[simp] theorem sampleInputs_eeLog : (sampleInputs s).eeLog = s.eeLog := by unfold sampleInputs; split <;> rfl
@[simp] theorem sampleInputs_stepNo : (sampleInputs s).stepNo = s.stepNo := by unfold sampleInputs; split <;> rfl
@[simp] theorem sampleInputs_drawCtr : (sampleInputs s).drawCtr = s.drawCtr := by unfold sampleInputs; split <;> rfl

end Sys2Proof.Machine
end

