-- ==== Sys2Proof/Laws/Ops.lean ====
section
/-! SUPPORT. For each shared operation, one lemma that says when it answers a next state and which. -/

namespace Sys2Proof.Machine

theorem andThen_next {r : Result} {k : State → Result} {u : State} :
    andThen r k = .next u ↔ ∃ t, r = .next t ∧ k t = .next u := by
  cases r <;> simp [andThen]

theorem andThen_fault {r : Result} {k : State → Result} {e : Fault} :
    andThen r k = .fault e ↔ r = .fault e ∨ ∃ t, r = .next t ∧ k t = .fault e := by
  cases r <;> simp [andThen]

/-- A guard that faults: the rest answers. -/
theorem fault_else_next {c : Prop} [Decidable c] {e : Fault} {r : Result} {t : State} :
    (if c then .fault e else r) = .next t ↔ ¬c ∧ r = .next t := by
  split <;> simp_all

/-- A guard that refuses: the rest answers. -/
theorem refused_else_next {c : Prop} [Decidable c] {e : Refusal} {r : Result} {t : State} :
    (if c then .refused e else r) = .next t ↔ ¬c ∧ r = .next t := by
  split <;> simp_all

/-- A guard of a read that fails: the rest answers. -/
theorem error_else_ok {c : Prop} [Decidable c] {e : Fault} {r : Except Fault (List Byte)} {bs : List Byte} :
    (if c then .error e else r) = .ok bs ↔ ¬c ∧ r = .ok bs := by
  split <;> simp_all

/-! ## The flash controller -/

theorem fcBusy_eq_false {s : State} : fcBusy s = false ↔ s.fc.busyLeft = 0 := by
  simp [fcBusy]

theorem fcRead_ok {a n : Nat} {s : State} {bs : List Byte} :
    fcRead a n s = .ok bs ↔ s.fc.busyLeft = 0 ∧ s.fc.rwwEn = true ∧ a + n ≤ s.cfg.flashSize ∧
      bs = s.fc.flash.readList a n := by
  simp only [fcRead, error_else_ok, Bool.not_eq_true, fcBusy_eq_false, Bool.not_eq_false, Nat.not_lt,
    Except.ok.injEq, eq_comm (a := bs)]

/-- What FC_ERASE does (20_memory.md R86). -/
def eraseResult (p : Nat) (s : State) : State :=
  { s with
    fc.flash := s.fc.flash.writeList p (List.replicate s.cfg.pageSize s.cfg.erasedByte)
    fc.rwwEn := false
    fc.busyLeft := s.env.inp.fcLat
    fc.erased := some p
    fc.filled := [] }

theorem fcErase_next {p : Nat} {s t : State} :
    fcErase p s = .next t ↔ s.fc.busyLeft = 0 ∧ p % s.cfg.pageSize = 0 ∧ p < s.cfg.flashSize ∧
      1 ≤ s.env.inp.fcLat ∧ s.env.inp.fcLat ≤ s.cfg.maxErase ∧ t = eraseResult p s := by
  simp only [fcErase, fault_else_next, refused_else_next, Bool.not_eq_true, fcBusy_eq_false, not_not, Nat.not_le,
    not_or, Nat.not_lt, Host.Outcome.next.injEq, and_assoc, eraseResult, eq_comm (a := t)]

/-- What FC_FILL does (20_memory.md R87). -/
def fillResult (off : Nat) (w : Word) (s : State) : State :=
  { s with
    fc.pb := s.fc.pb.writeList off (leBytes w)
    fc.busyLeft := s.env.inp.fcLat
    fc.filled := off :: s.fc.filled }

theorem fcFill_next {off : Nat} {w : Word} {s t : State} :
    fcFill off w s = .next t ↔ s.fc.busyLeft = 0 ∧ off % 2 = 0 ∧ off < s.cfg.pageSize ∧
      s.env.inp.fcLat ≤ s.cfg.maxFill ∧ t = fillResult off w s := by
  simp only [fcFill, fault_else_next, refused_else_next, Bool.not_eq_true, fcBusy_eq_false, not_not, Nat.not_le,
    Nat.not_lt, Host.Outcome.next.injEq, fillResult, eq_comm (a := t)]

/-- What FC_COMMIT does (20_memory.md R88). -/
def commitResult (p : Nat) (s : State) : State :=
  { s with
    fc.flash := s.fc.flash.writeList p (s.fc.pb.readList 0 s.cfg.pageSize)
    fc.pb := s.fc.pb.writeList 0 (drawBytes s.drawCtr s.cfg.pageSize)
    fc.rwwEn := false
    fc.busyLeft := s.env.inp.fcLat
    fc.erased := .none
    fc.filled := []
    drawCtr := s.drawCtr + s.cfg.pageSize }

theorem pageFilled_eq_true {s : State} :
    pageFilled s = true ↔ ∀ k < s.cfg.pageWords, 2 * k ∈ s.fc.filled := by
  simp [pageFilled]

theorem fcCommit_next {p : Nat} {s t : State} :
    fcCommit p s = .next t ↔ s.fc.busyLeft = 0 ∧ p % s.cfg.pageSize = 0 ∧ p < s.cfg.flashSize ∧
      s.fc.erased = some p ∧ pageFilled s = true ∧
      1 ≤ s.env.inp.fcLat ∧ s.env.inp.fcLat ≤ s.cfg.maxWrite ∧ t = commitResult p s := by
  simp only [fcCommit, fault_else_next, refused_else_next, Bool.not_eq_true, fcBusy_eq_false, not_not, Nat.not_le,
    not_or, Nat.not_lt, Bool.not_eq_false, Host.Outcome.next.injEq, and_assoc, commitResult, eq_comm (a := t)]

theorem fcRwwEn_next {s t : State} :
    fcRwwEn s = .next t ↔ s.fc.busyLeft = 0 ∧ t = { s with fc.rwwEn := true } := by
  simp only [fcRwwEn, fault_else_next, Bool.not_eq_true, fcBusy_eq_false, Host.Outcome.next.injEq, eq_comm (a := t)]

/-! ## Hand-off and the entries of the Flash Programmer -/

/-- What the hand-off does (43_boot_controller.md R306). -/
def handoffResult (cause : AppCause) (s : State) : State :=
  { s with
    boot.bootState := .runApplication
    boot.appCause := cause
    boot.appEntry := slotValue s
    dec.phase := .idle
    fp.phase := .idle }

theorem leValue_slot (s : State) : leValue (s.fc.flash.readList s.cfg.funcAddr Config.ptrBytes) = slotValue s := rfl

theorem handoff_next {cause : AppCause} {s t : State} :
    handoff cause s = .next t ↔ s.fc.busyLeft = 0 ∧ s.fc.rwwEn = true ∧
      s.cfg.funcAddr + 2 ≤ s.cfg.flashSize ∧ t = handoffResult cause s := by
  unfold handoff
  cases h : fcRead s.cfg.funcAddr Config.ptrBytes s with
  | error e =>
    simp only [reduceCtorEq, false_iff]
    rintro ⟨h1, h2, h3, -⟩
    have := (fcRead_ok (a := s.cfg.funcAddr) (n := Config.ptrBytes) (s := s)).mpr ⟨h1, h2, h3, rfl⟩
    rw [h] at this
    cases this
  | ok bs =>
    obtain ⟨h1, h2, h3, rfl⟩ := fcRead_ok.mp h
    simp only [leValue_slot, Host.Outcome.next.injEq, h1, h2, true_and]
    exact ⟨fun ht => ⟨h3, ht.symm⟩, fun ht => ht.2.symm⟩

/-- What FP_START_BLOCK does (42_flash_programmer.md R251). -/
def blockResult (a : Nat) (bytes : List Byte) (s : State) : State :=
  { s with
    fp.kind := .block
    fp.page := a - a % s.cfg.pageSize
    fp.blkOff := a % s.cfg.pageSize
    fp.blkLen := bytes.length
    fp.blk := s.fp.blk.writeList 0 bytes
    fp.phase := .read }

theorem fpStartBlock_next {a : Nat} {bytes : List Byte} {s t : State} :
    fpStartBlock a bytes s = .next t ↔ 1 ≤ bytes.length ∧ bytes.length < s.cfg.pageSize ∧
      a % s.cfg.pageSize + bytes.length ≤ s.cfg.pageSize ∧ a + bytes.length ≤ s.cfg.flashSize ∧
      t = blockResult a bytes s := by
  unfold fpStartBlock blockResult
  by_cases h : bytes.length < 1 ∨ s.cfg.pageSize ≤ bytes.length ∨
      s.cfg.pageSize < a % s.cfg.pageSize + bytes.length ∨ s.cfg.flashSize < a + bytes.length
  · simp only [if_pos h, reduceCtorEq, false_iff]
    omega
  · simp only [if_neg h, Host.Outcome.next.injEq]
    constructor
    · rintro rfl
      exact ⟨by omega, by omega, by omega, by omega, rfl⟩
    · rintro ⟨-, -, -, -, rfl⟩
      rfl

/-! ## The phases of the Flash Programmer -/

/-- What READ does (42_flash_programmer.md R263, R264). -/
def readResult (s : State) : State :=
  { s with
    fp.m := (s.fp.m.writeList 0 (s.fc.flash.readList s.fp.page s.cfg.pageSize)).writeList s.fp.blkOff
      (s.fp.blk.readList 0 s.fp.blkLen)
    fp.phase := .erase }

theorem fpRead_next {s t : State} :
    fpRead s = .next t ↔ s.fc.busyLeft = 0 ∧ s.fc.rwwEn = true ∧
      s.fp.page + s.cfg.pageSize ≤ s.cfg.flashSize ∧ t = readResult s := by
  unfold fpRead
  cases h : fcRead s.fp.page s.cfg.pageSize s with
  | error e =>
    simp only [reduceCtorEq, false_iff]
    rintro ⟨h1, h2, h3, -⟩
    have := (fcRead_ok (a := s.fp.page) (n := s.cfg.pageSize) (s := s)).mpr ⟨h1, h2, h3, rfl⟩
    rw [h] at this
    cases this
  | ok bs =>
    obtain ⟨h1, h2, h3, rfl⟩ := fcRead_ok.mp h
    simp only [Host.Outcome.next.injEq, h1, h2, true_and]
    exact ⟨fun ht => ⟨h3, ht.symm⟩, fun ht => ht.2.symm⟩

theorem fpErase_next {s t : State} :
    fpErase s = .next t ↔ s.fc.busyLeft = 0 ∧ s.fp.page % s.cfg.pageSize = 0 ∧ s.fp.page < s.cfg.flashSize ∧
      1 ≤ s.env.inp.fcLat ∧ s.env.inp.fcLat ≤ s.cfg.maxErase ∧
      t = { eraseResult s.fp.page s with fp.savedIe := s.cpuIe, cpuIe := false, fp.phase := .eraseWait } := by
  unfold fpErase
  simp only [andThen_next, fcErase_next, Host.Outcome.next.injEq]
  constructor
  · rintro ⟨_, ⟨h1, h2, h3, h4, h5, rfl⟩, rfl⟩
    exact ⟨h1, h2, h3, h4, h5, rfl⟩
  · rintro ⟨h1, h2, h3, h4, h5, rfl⟩
    exact ⟨_, ⟨h1, h2, h3, h4, h5, rfl⟩, rfl⟩

theorem fpFill_next {s t : State} :
    fpFill s = .next t ↔ s.fc.busyLeft = 0 ∧ 2 * s.fp.idx < s.cfg.pageSize ∧
      s.env.inp.fcLat ≤ s.cfg.maxFill ∧
      t = { fillResult (2 * s.fp.idx) (fillWord s) (captureVector s) with fp.phase := .fillWait } := by
  unfold fpFill
  have h : ∀ u : State, (captureVector u).fc = u.fc ∧ (captureVector u).cfg = u.cfg ∧
      (captureVector u).env = u.env := by
    intro u; unfold captureVector; split <;> exact ⟨rfl, rfl, rfl⟩
  obtain ⟨h1, h2, h3⟩ := h s
  simp only [andThen_next, fcFill_next, Host.Outcome.next.injEq, h1, h2, h3]
  constructor
  · rintro ⟨_, ⟨h1, -, h3, h4, rfl⟩, rfl⟩
    exact ⟨h1, h3, h4, rfl⟩
  · rintro ⟨h1, h3, h4, rfl⟩
    exact ⟨_, ⟨h1, by simp, h3, h4, rfl⟩, rfl⟩

theorem fpCommit_next {s t : State} :
    fpCommit s = .next t ↔ s.fc.busyLeft = 0 ∧ s.fp.page % s.cfg.pageSize = 0 ∧ s.fp.page < s.cfg.flashSize ∧
      s.fc.erased = some s.fp.page ∧ pageFilled s = true ∧
      1 ≤ s.env.inp.fcLat ∧ s.env.inp.fcLat ≤ s.cfg.maxWrite ∧
      t = { commitResult s.fp.page s with fp.phase := .commitWait } := by
  unfold fpCommit
  simp only [andThen_next, fcCommit_next, Host.Outcome.next.injEq]
  constructor
  · rintro ⟨_, ⟨h1, h2, h3, h4, h5, h6, h7, rfl⟩, rfl⟩
    exact ⟨h1, h2, h3, h4, h5, h6, h7, rfl⟩
  · rintro ⟨h1, h2, h3, h4, h5, h6, h7, rfl⟩
    exact ⟨_, ⟨h1, h2, h3, h4, h5, h6, h7, rfl⟩, rfl⟩

theorem fpRww_next {s t : State} :
    fpRww s = .next t ↔ s.fc.busyLeft = 0 ∧
      t = { s with fc.rwwEn := true, cpuIe := s.fp.savedIe, fp.phase := .done } := by
  unfold fpRww
  simp only [andThen_next, fcRwwEn_next, Host.Outcome.next.injEq]
  constructor
  · rintro ⟨_, ⟨h1, rfl⟩, rfl⟩
    exact ⟨h1, rfl⟩
  · rintro ⟨h1, rfl⟩
    exact ⟨_, ⟨h1, rfl⟩, rfl⟩

/-- The programmer is not idle and not done: what one of its steps can do, phase by phase
(42_flash_programmer.md R252 to R263). -/
theorem programmerStep_next {s t : State} (h : programmerStep s = .next t) :
    ((s.fp.phase = .idle ∨ s.fp.phase = .done) ∧ t = s) ∨
    (s.fp.phase = .read ∧ fpRead s = .next t) ∨
    (s.fp.phase = .erase ∧ fpErase s = .next t) ∨
    (waitsForFlash s.fp.phase = true ∧ 0 < s.fc.busyLeft ∧ t = s) ∨
    (s.fp.phase = .eraseWait ∧ s.fc.busyLeft = 0 ∧ t = { s with fp.idx := 0, fp.phase := .fill }) ∨
    (s.fp.phase = .fill ∧ fpFill s = .next t) ∨
    (s.fp.phase = .fillWait ∧ s.fc.busyLeft = 0 ∧ s.fp.idx + 1 = s.cfg.pageWords ∧
      t = { s with fp.phase := .commit }) ∨
    (s.fp.phase = .fillWait ∧ s.fc.busyLeft = 0 ∧ s.fp.idx + 1 ≠ s.cfg.pageWords ∧
      t = { s with fp.idx := s.fp.idx + 1, fp.phase := .fill }) ∨
    (s.fp.phase = .commit ∧ fpCommit s = .next t) ∨
    (s.fp.phase = .commitWait ∧ s.fc.busyLeft = 0 ∧ t = { s with fp.phase := .rww }) ∨
    (s.fp.phase = .rww ∧ fpRww s = .next t) := by
  have hb := @fcBusy_eq_false s
  unfold programmerStep at h
  cases hp : s.fp.phase <;> simp only [hp] at h
  case eraseWait =>
    unfold fpEraseWait at h
    split at h <;> simp_all [waitsForFlash, fcBusy]
  case fillWait =>
    unfold fpFillWait at h
    split_ifs at h <;> simp_all [waitsForFlash, fcBusy]
  case commitWait =>
    unfold fpCommitWait at h
    split at h <;> simp_all [waitsForFlash, fcBusy]
  all_goals simp_all [waitsForFlash]

/-! ## The step -/

theorem step_next {s t : State} : step s = .next t ↔
    stepRefusal (sampleInputs s) = none ∧
    (((nextInput s).rst = true ∧ resetStep (tick (sampleInputs s)) = .next t) ∨
     ((nextInput s).rst = false ∧ controllerStep (tick (sampleInputs s)) = .next t)) := by
  unfold step nextInput
  cases h : stepRefusal (sampleInputs s) with
  | some r => simp
  | none => cases hr : (sampleInputs s).env.inp.rst <;> simp [hr]

theorem step_of_ordinary {s : State} (h : Ordinary s) : step s = controllerStep (tick (sampleInputs s)) := by
  obtain ⟨h1, h2⟩ := h
  unfold nextInput at h2
  simp [step, h1, h2]

theorem tick_sample_inp (s : State) : (tick (sampleInputs s)).env.inp = nextInput s := rfl

/-- No step is made under a configuration that is not well formed (00_scope.md R8). -/
theorem cfg_wf_of_stepRefusal {s : State} (h : stepRefusal s = none) : s.cfg.wf = true := by
  unfold stepRefusal at h
  split at h
  · cases h
  · next hw => simpa using hw

/-- The CPU leaves its interrupt enable alone from ERASE to RWW (70_reset_and_hazards.md R393). -/
theorem no_cpu_write_in_span {s : State} (h : stepRefusal s = none) (hr : s.env.inp.rst = false)
    (hp : inCriticalSpan s.fp.phase = true) : s.env.inp.cpuIe = none := by
  unfold stepRefusal at h
  split_ifs at h <;> simp_all

/-- The constraints of 00_scope.md R6. -/
theorem Config.wf_iff {c : Config} : c.wf = true ↔
    2 < c.pageSize ∧ c.pageSize % 2 = 0 ∧ 0 < c.flashSize ∧ c.flashSize % c.pageSize = 0 ∧
    c.bootStart % c.pageSize = 0 ∧ c.pageSize ≤ c.bootStart ∧ c.bootStart ≤ c.flashSize ∧
    1 ≤ c.bootTimeout ∧ 1 ≤ c.blinkTicks ∧ 1 ≤ c.fastBlinkTicks ∧ 2 ≤ c.timerW ∧ 1 ≤ c.maxErase ∧
    1 ≤ c.maxWrite := by
  simp [Config.wf]

end Sys2Proof.Machine
end

