-- ==== Sys2Proof/Laws/PerInstr.lean ====
section
/-! SUPPORT. Statements about every instruction as syntax, one lemma per constructor. -/

namespace Sys2Proof.Laws.FrameLength

/-- An instruction's encoding has the length of its frame: the command byte, three two-byte fields, the payload
(30_encoding.md R130). -/
def Statement (i : Instr) : Prop := (encode i).length = 7 + i.frame.payload.length

theorem any (i : Instr) : Statement i := by
  simp only [Statement, encode, List.length_cons, length_encodeFrame]
  omega

theorem noCommand (f : Frame) : Statement (.noCommand f) := any _
theorem test (f : Frame) : Statement (.test f) := any _
theorem program (f : Frame) : Statement (.program f) := any _
theorem run (f : Frame) : Statement (.run f) := any _
theorem eepromWrite (f : Frame) : Statement (.eepromWrite f) := any _
theorem exit (f : Frame) : Statement (.exit f) := any _
theorem unrecognised06 (b : BitVec 1) (f : Frame) : Statement (.unrecognised06 b f) := any _
theorem unrecognised08 (b : BitVec 3) (f : Frame) : Statement (.unrecognised08 b f) := any _
theorem unrecognised10 (b : BitVec 4) (f : Frame) : Statement (.unrecognised10 b f) := any _
theorem unrecognised20 (b : BitVec 5) (f : Frame) : Statement (.unrecognised20 b f) := any _
theorem unrecognised40 (b : BitVec 6) (f : Frame) : Statement (.unrecognised40 b f) := any _
theorem unrecognised80 (b : BitVec 7) (f : Frame) : Statement (.unrecognised80 b f) := any _

end Sys2Proof.Laws.FrameLength

namespace Sys2Proof.Laws.CommandSelects

/-- The command byte of an instruction selects that instruction and no other (30_encoding.md R136). -/
def Statement (i : Instr) : Prop := decodeCommand (commandByte i) i.frame = i

theorem noCommand (f : Frame) : Statement (.noCommand f) := rfl
theorem test (f : Frame) : Statement (.test f) := rfl
theorem program (f : Frame) : Statement (.program f) := rfl
theorem run (f : Frame) : Statement (.run f) := rfl
theorem eepromWrite (f : Frame) : Statement (.eepromWrite f) := rfl
theorem exit (f : Frame) : Statement (.exit f) := rfl

theorem bits06 : ∀ b : BitVec 1,
      (0b0000011#7 ++ b) ≠ 0#8 ∧ (0b0000011#7 ++ b) ≠ 1#8 ∧ (0b0000011#7 ++ b) ≠ 2#8 ∧
      (0b0000011#7 ++ b) ≠ 3#8 ∧ (0b0000011#7 ++ b) ≠ 4#8 ∧ (0b0000011#7 ++ b) ≠ 5#8 ∧
      (0b0000011#7 ++ b).extractLsb' 1 7 = 0b0000011#7 ∧ (0b0000011#7 ++ b).extractLsb' 0 1 = b := by
  decide

theorem unrecognised06 (b : BitVec 1) (f : Frame) : Statement (.unrecognised06 b f) := by
  obtain ⟨h0, h1, h2, h3, h4, h5, h6, h7⟩ := bits06 b
  unfold Statement decodeCommand commandByte
  rw [if_neg h0, if_neg h1, if_neg h2, if_neg h3, if_neg h4, if_neg h5, if_pos h6, h7]
  rfl

theorem bits08 : ∀ b : BitVec 3,
      (0b00001#5 ++ b) ≠ 0#8 ∧ (0b00001#5 ++ b) ≠ 1#8 ∧ (0b00001#5 ++ b) ≠ 2#8 ∧
      (0b00001#5 ++ b) ≠ 3#8 ∧ (0b00001#5 ++ b) ≠ 4#8 ∧ (0b00001#5 ++ b) ≠ 5#8 ∧
      (0b00001#5 ++ b).extractLsb' 1 7 ≠ 0b0000011#7 ∧ (0b00001#5 ++ b).extractLsb' 3 5 = 0b00001#5 ∧ (0b00001#5 ++ b).extractLsb' 0 3 = b := by
  decide

theorem unrecognised08 (b : BitVec 3) (f : Frame) : Statement (.unrecognised08 b f) := by
  obtain ⟨h0, h1, h2, h3, h4, h5, h6, h7, h8⟩ := bits08 b
  unfold Statement decodeCommand commandByte
  rw [if_neg h0, if_neg h1, if_neg h2, if_neg h3, if_neg h4, if_neg h5, if_neg h6, if_pos h7, h8]
  rfl

theorem bits10 : ∀ b : BitVec 4,
      (0b0001#4 ++ b) ≠ 0#8 ∧ (0b0001#4 ++ b) ≠ 1#8 ∧ (0b0001#4 ++ b) ≠ 2#8 ∧
      (0b0001#4 ++ b) ≠ 3#8 ∧ (0b0001#4 ++ b) ≠ 4#8 ∧ (0b0001#4 ++ b) ≠ 5#8 ∧
      (0b0001#4 ++ b).extractLsb' 1 7 ≠ 0b0000011#7 ∧ (0b0001#4 ++ b).extractLsb' 3 5 ≠ 0b00001#5 ∧ (0b0001#4 ++ b).extractLsb' 4 4 = 0b0001#4 ∧
      (0b0001#4 ++ b).extractLsb' 0 4 = b := by
  decide

theorem unrecognised10 (b : BitVec 4) (f : Frame) : Statement (.unrecognised10 b f) := by
  obtain ⟨h0, h1, h2, h3, h4, h5, h6, h7, h8, h9⟩ := bits10 b
  unfold Statement decodeCommand commandByte
  rw [if_neg h0, if_neg h1, if_neg h2, if_neg h3, if_neg h4, if_neg h5, if_neg h6, if_neg h7, if_pos h8, h9]
  rfl

theorem bits20 : ∀ b : BitVec 5,
      (0b001#3 ++ b) ≠ 0#8 ∧ (0b001#3 ++ b) ≠ 1#8 ∧ (0b001#3 ++ b) ≠ 2#8 ∧
      (0b001#3 ++ b) ≠ 3#8 ∧ (0b001#3 ++ b) ≠ 4#8 ∧ (0b001#3 ++ b) ≠ 5#8 ∧
      (0b001#3 ++ b).extractLsb' 1 7 ≠ 0b0000011#7 ∧ (0b001#3 ++ b).extractLsb' 3 5 ≠ 0b00001#5 ∧ (0b001#3 ++ b).extractLsb' 4 4 ≠ 0b0001#4 ∧
      (0b001#3 ++ b).extractLsb' 5 3 = 0b001#3 ∧ (0b001#3 ++ b).extractLsb' 0 5 = b := by
  decide

theorem unrecognised20 (b : BitVec 5) (f : Frame) : Statement (.unrecognised20 b f) := by
  obtain ⟨h0, h1, h2, h3, h4, h5, h6, h7, h8, h9, h10⟩ := bits20 b
  unfold Statement decodeCommand commandByte
  rw [if_neg h0, if_neg h1, if_neg h2, if_neg h3, if_neg h4, if_neg h5, if_neg h6, if_neg h7, if_neg h8, if_pos h9, h10]
  rfl

theorem bits40 : ∀ b : BitVec 6,
      (0b01#2 ++ b) ≠ 0#8 ∧ (0b01#2 ++ b) ≠ 1#8 ∧ (0b01#2 ++ b) ≠ 2#8 ∧
      (0b01#2 ++ b) ≠ 3#8 ∧ (0b01#2 ++ b) ≠ 4#8 ∧ (0b01#2 ++ b) ≠ 5#8 ∧
      (0b01#2 ++ b).extractLsb' 1 7 ≠ 0b0000011#7 ∧ (0b01#2 ++ b).extractLsb' 3 5 ≠ 0b00001#5 ∧ (0b01#2 ++ b).extractLsb' 4 4 ≠ 0b0001#4 ∧
      (0b01#2 ++ b).extractLsb' 5 3 ≠ 0b001#3 ∧ (0b01#2 ++ b).extractLsb' 6 2 = 0b01#2 ∧ (0b01#2 ++ b).extractLsb' 0 6 = b := by
  decide

theorem unrecognised40 (b : BitVec 6) (f : Frame) : Statement (.unrecognised40 b f) := by
  obtain ⟨h0, h1, h2, h3, h4, h5, h6, h7, h8, h9, h10, h11⟩ := bits40 b
  unfold Statement decodeCommand commandByte
  rw [if_neg h0, if_neg h1, if_neg h2, if_neg h3, if_neg h4, if_neg h5, if_neg h6, if_neg h7, if_neg h8, if_neg h9, if_pos h10, h11]
  rfl

theorem bits80 : ∀ b : BitVec 7,
      (0b1#1 ++ b) ≠ 0#8 ∧ (0b1#1 ++ b) ≠ 1#8 ∧ (0b1#1 ++ b) ≠ 2#8 ∧
      (0b1#1 ++ b) ≠ 3#8 ∧ (0b1#1 ++ b) ≠ 4#8 ∧ (0b1#1 ++ b) ≠ 5#8 ∧
      (0b1#1 ++ b).extractLsb' 1 7 ≠ 0b0000011#7 ∧ (0b1#1 ++ b).extractLsb' 3 5 ≠ 0b00001#5 ∧ (0b1#1 ++ b).extractLsb' 4 4 ≠ 0b0001#4 ∧
      (0b1#1 ++ b).extractLsb' 5 3 ≠ 0b001#3 ∧ (0b1#1 ++ b).extractLsb' 6 2 ≠ 0b01#2 ∧ (0b1#1 ++ b).extractLsb' 0 7 = b := by
  decide

theorem unrecognised80 (b : BitVec 7) (f : Frame) : Statement (.unrecognised80 b f) := by
  obtain ⟨h0, h1, h2, h3, h4, h5, h6, h7, h8, h9, h10, h11⟩ := bits80 b
  unfold Statement decodeCommand commandByte
  rw [if_neg h0, if_neg h1, if_neg h2, if_neg h3, if_neg h4, if_neg h5, if_neg h6, if_neg h7, if_neg h8, if_neg h9, if_neg h10, h11]
  rfl

end Sys2Proof.Laws.CommandSelects
end

