-- ==== Sys2Proof/Laws/Step.lean ====
section
/-! SUPPORT. What the front of a step leaves in each field, which phase's rule a step is, and the arithmetic of a bit
store and of the function-address slot. -/

namespace Sys2Proof.Machine

/-- Sampling changes the environment's part of the state only. -/
theorem sampleInputs_eq (s : State) : sampleInputs s = { s with env := (sampleInputs s).env } := by
  unfold sampleInputs
  split <;> rfl

/-! ## The fields after the front of a step -/

theorem begun_cfg (s : State) : (tick (sampleInputs s)).cfg = s.cfg := by rw [sampleInputs_eq]; rfl
theorem begun_boot (s : State) : (tick (sampleInputs s)).boot = s.boot := by rw [sampleInputs_eq]; rfl
theorem begun_dec (s : State) :
    (tick (sampleInputs s)).dec = { s.dec with tmr := nextTmr s } := by rw [sampleInputs_eq]; rfl
theorem begun_frame (s : State) : (tick (sampleInputs s)).frame = s.frame := by rw [sampleInputs_eq]; rfl
theorem begun_ee (s : State) : (tick (sampleInputs s)).ee = s.ee := by rw [sampleInputs_eq]; rfl
theorem begun_fp (s : State) : (tick (sampleInputs s)).fp = s.fp := by rw [sampleInputs_eq]; rfl
theorem begun_sev (s : State) : (tick (sampleInputs s)).sev = s.sev := by rw [sampleInputs_eq]; rfl
theorem begun_sevValid (s : State) : (tick (sampleInputs s)).sevValid = s.sevValid := by
  rw [sampleInputs_eq]; rfl
theorem begun_fc (s : State) :
    (tick (sampleInputs s)).fc = { s.fc with busyLeft := s.fc.busyLeft - 1 } := by rw [sampleInputs_eq]; rfl
theorem begun_eeLog (s : State) : (tick (sampleInputs s)).eeLog = s.eeLog := by rw [sampleInputs_eq]; rfl
theorem begun_drawCtr (s : State) : (tick (sampleInputs s)).drawCtr = s.drawCtr := by
  rw [sampleInputs_eq]; rfl

/-- The decoder compares the next input's pin with the reference level. -/
theorem pinChanged_begun (s : State) :
    pinChanged (tick (sampleInputs s)) = ((nextInput s).pinIn != s.dec.ref) := by
  unfold pinChanged
  rw [begun_dec]
  rfl

/-! ## Which rule a step is -/

/-- In LISTENING/RX the step is the decoder's. -/
theorem step_of_receiving {s : State} (h : Ordinary s) (hr : Receiving s) :
    step s = .next (decoderStep (tick (sampleInputs s))) := by
  rw [step_of_ordinary h]
  unfold controllerStep
  rw [begun_boot, hr.1]
  simp only [listeningStep]
  rw [begun_boot, hr.2]

/-- In PROG_WAIT, before DONE, the step is the programmer's. -/
theorem step_of_progWait {s : State} (h : Ordinary s) (hb : s.boot.bootState = .listening)
    (hl : s.boot.lstPhase = .progWait) (hp : s.fp.phase ≠ .done) :
    step s = programmerStep (tick (sampleInputs s)) := by
  rw [step_of_ordinary h]
  unfold controllerStep
  rw [begun_boot, hb]
  simp only [listeningStep]
  rw [begun_boot, hl]
  simp only [progWaitStep, begun_fp, if_neg hp]

/-- In RUN_WAIT, before DONE, the step is the programmer's. -/
theorem step_of_runWait {s : State} (h : Ordinary s) (hb : s.boot.bootState = .listening)
    (hl : s.boot.lstPhase = .runWait) (hp : s.fp.phase ≠ .done) :
    step s = programmerStep (tick (sampleInputs s)) := by
  rw [step_of_ordinary h]
  unfold controllerStep
  rw [begun_boot, hb]
  simp only [listeningStep]
  rw [begun_boot, hl]
  simp only [runWaitStep, begun_fp, if_neg hp]

/-- In IDLE or DONE of the programmer the controller is idle and flash reads are enabled. -/
theorem Inv.flash_idle {s : State} (h : Inv s) (hp : s.fp.phase = .idle ∨ s.fp.phase = .done) :
    s.fc.busyLeft = 0 ∧ s.fc.rwwEn = true := by
  constructor
  · exact h.busy (by rcases hp with hp | hp <;> simp [hp, waitsForFlash])
  · have := h.rww
    rcases hp with hp | hp <;> simp [hp, interruptsMasked] at this <;> exact this

/-! ## Bits and addresses -/

/-- A bit store changes one bit of its byte. -/
theorem getLsbD_setBit (v : Byte) (b : Bool) {j k : Nat} (hj : j < 8) (hk : k < 8) :
    (setBit v j b).getLsbD k = if k = j then b else v.getLsbD k := by
  unfold setBit
  cases b
  · simp [hk]
    by_cases h : k = j
    · subst h; simp
    · simp [h]; omega
  · simp [hk]
    by_cases h : k = j
    · subst h; simp
    · simp [h]; omega

/-- The slot is the last two bytes of the page below BOOT_START (20_memory.md R82). -/
theorem Config.funcAddr_mod {c : Config} (h : c.wf = true) : c.funcAddr % c.pageSize = c.pageSize - 2 := by
  obtain ⟨h1, h2, -, -, h5, h6, -⟩ := Config.wf_iff.mp h
  obtain ⟨k, hk⟩ := Nat.dvd_of_mod_eq_zero h5
  have hk1 : 1 ≤ k := by
    rcases k with _ | k
    · simp at hk; omega
    · omega
  obtain ⟨j, rfl⟩ := Nat.exists_eq_add_of_le hk1
  have e : c.funcAddr = (c.pageSize - 2) + c.pageSize * j := by
    unfold Config.funcAddr
    rw [hk, Nat.mul_add, Nat.mul_one]
    simp only [Config.ptrBytes]
    omega
  rw [e, Nat.add_mul_mod_self_left]
  exact Nat.mod_eq_of_lt (by omega)

end Sys2Proof.Machine
end

