-- ==== Sys2Proof/Tests/Slice0.lean ====
section
/-! SUPPORT. Tests with results taken from the spec, and a witness for the hypotheses of every obligation. -/

namespace Sys2Proof.Machine.Tests

/-! ## Helpers -/

/-- The outcome is a next state with a property. -/
def nextIs (r : Result) (p : State → Bool) : Bool :=
  match r with
  | .next t => p t
  | .fault _ => false
  | .refused _ => false

/-- The outcome is this refusal. -/
def refusedIs (r : Result) (e : Refusal) : Bool :=
  match r with
  | .next _ => false
  | .fault _ => false
  | .refused e' => e' == e

/-- The outcome is this fault. -/
def faultIs (r : Result) (e : Fault) : Bool :=
  match r with
  | .next _ => false
  | .fault e' => e' == e
  | .refused _ => false

theorem exists_next {r : Result} (h : nextIs r (fun _ => true) = true) : ∃ t, r = .next t := by
  cases r with
  | next t => exact ⟨t, rfl⟩
  | fault e => cases h
  | refused e => cases h

theorem exists_next_with {r : Result} {p : State → Bool} (h : nextIs r p = true) : ∃ t, r = .next t ∧ p t = true := by
  cases r with
  | next t => exact ⟨t, rfl, h⟩
  | fault e => cases h
  | refused e => cases h

/-- FLASH as INIT of 95_test_vectors.md has it in the page below BOOT_START, with a first word. -/
def flash0 : Memory := [(0, 0x0F#8), (1, 0xC0#8), (12, 0x11#8), (13, 0x22#8), (14, 0x33#8), (15, 0x44#8)]

/-- A state under EX4 with that FLASH and an enabled CPU. -/
def base : State := { State.reset with fc.flash := flash0, cpuIe := true }

/-- The state with the next input replaced. -/
def drive (s : State) (i : Input) : State := { s with env.inputs := [i] }

/-- LISTENING/RX in a decoder phase, with the estimate of period 4. -/
def rx (p : DecPhase) : State :=
  { base with
    boot.bootState := .listening
    boot.lstPhase := .rx
    dec.phase := p
    dec.acc := 32
    dec.delay := 3
    dec.tmr := 2 }

/-- The frame buffer of a frame under EX4. -/
def inBuffer (s : State) (bs : List Byte) : State := { s with frame := Memory.writeList [] 0 bs }

/-- PROGRAM of page 0 with the payload of 95_test_vectors.md P2. -/
def p2Frame : List Byte :=
  [0x02#8, 0x00#8, 0x00#8, 0x04#8, 0x00#8, 0x00#8, 0x00#8, 0x0F#8, 0xC0#8, 0xAA#8, 0xBB#8]

/-- LISTENING/DISPATCH with that frame received. -/
def dispatch : State := inBuffer { base with boot.bootState := .listening, boot.lstPhase := .dispatch } p2Frame

/-- PROG_WAIT on page 0 in a programmer phase. -/
def prog (p : FpPhase) : State :=
  { dispatch with boot.lstPhase := .progWait, fp.phase := p, fp.kind := .fullPage, fp.page := 0 }

/-- PROG_WAIT inside the critical section. -/
def progMasked (p : FpPhase) : State :=
  { prog p with cpuIe := false, fp.savedIe := true, fc.rwwEn := false, fc.erased := some 0 }

/-- RUN_WAIT on the slot's page in a programmer phase, with the block of `sev = 0x0010`. -/
def restore (p : FpPhase) : State :=
  { dispatch with
    boot.lstPhase := .runWait
    fp.phase := p
    fp.kind := .block
    fp.page := 12
    fp.blkOff := 2
    fp.blkLen := 2
    fp.blk := [(0, 0x10#8)]
    sev := 0x10#16 }

/-- EE_WRITE of two bytes at address 12. -/
def eeWrite (i : BitVec 16) : State :=
  { inBuffer base [0x04#8, 0x03#8, 0x00#8, 0x02#8, 0x00#8, 0x34#8, 0x12#8, 0xAA#8, 0xBB#8, 0xCC#8, 0xDD#8] with
    boot.bootState := .listening
    boot.lstPhase := .eeWrite
    ee := { base := 12, n := 2#16, i := i } }

def hang : State := { base with boot.bootState := .errorHang, boot.blinkCnt := 1 }
def running : State := { base with boot.bootState := .runApplication }
def resetInput (skip : Bool) : Input := { Input.quiet with rst := true, skipIn := skip, pinIn := true, cpuIe := some true }
def high : Input := { Input.quiet with pinIn := true }

/-! ## Well-formedness: one ill-formed term for each check (00_scope.md R6, R8; 30_encoding.md R130) -/

theorem test_examples_wf : Config.ex64.wf = true ∧ Config.ex4.wf = true ∧ Config.ex4b.wf = true := by decide
theorem test_wf_page_above_pointer : Config.wf { Config.ex4 with pageSize := 2 } = false := by decide
theorem test_wf_page_of_words : Config.wf { Config.ex4 with pageSize := 5, flashSize := 30, bootStart := 15 } = false := by
  decide
theorem test_wf_flash_positive : Config.wf { Config.ex4 with flashSize := 0 } = false := by decide
theorem test_wf_flash_of_pages : Config.wf { Config.ex4 with flashSize := 0x22 } = false := by decide
theorem test_wf_boot_aligned : Config.wf { Config.ex4 with bootStart := 0x0E } = false := by decide
theorem test_wf_boot_above_page : Config.wf { Config.ex4 with bootStart := 0 } = false := by decide
theorem test_wf_boot_in_flash : Config.wf { Config.ex4 with bootStart := 0x24 } = false := by decide
theorem test_wf_boot_at_flash_end : Config.wf { Config.ex4 with bootStart := 0x20 } = true := by decide
theorem test_wf_timeout : Config.wf { Config.ex4 with bootTimeout := 0 } = false := by decide
theorem test_wf_blink : Config.wf { Config.ex4 with blinkTicks := 0 } = false := by decide
theorem test_wf_fast_blink : Config.wf { Config.ex4 with fastBlinkTicks := 0 } = false := by decide
theorem test_wf_timer : Config.wf { Config.ex4 with timerW := 1 } = false := by decide
theorem test_wf_max_erase : Config.wf { Config.ex4 with maxErase := 0 } = false := by decide
theorem test_wf_max_write : Config.wf { Config.ex4 with maxWrite := 0 } = false := by decide

/-- A frame with the given payload. -/
def frameWith (p : List Byte) : Frame := { page := 0#16, length := 0#16, checksum := 0#16, payload := p }

theorem test_instr_wf_long : (Instr.test (frameWith [0#8, 0#8, 0#8, 0#8, 0#8])).wf Config.ex4 = false := by decide
theorem test_instr_wf_short : (Instr.run (frameWith [0#8, 0#8, 0#8])).wf Config.ex4 = false := by decide
theorem test_instr_wf : (Instr.run (frameWith [0#8, 0#8, 0#8, 0#8])).wf Config.ex4 = true := by decide

/-! ## Decoding: words written out bit by bit from 30_encoding.md R130 and R136 -/

/-- What a command byte followed by zeros decodes to. -/
def zeroFrame : Frame := frameWith [0#8, 0#8, 0#8, 0#8]

theorem test_decode_no_command : decodeTableWord 8 0b00000000 = some (.noCommand zeroFrame) := by decide
theorem test_decode_test : decodeTableWord 8 0b00000001 = some (.test zeroFrame) := by decide
theorem test_decode_program : decodeTableWord 8 0b00000010 = some (.program zeroFrame) := by decide
theorem test_decode_run : decodeTableWord 8 0b00000011 = some (.run zeroFrame) := by decide
theorem test_decode_eeprom : decodeTableWord 8 0b00000100 = some (.eepromWrite zeroFrame) := by decide
theorem test_decode_exit : decodeTableWord 8 0b00000101 = some (.exit zeroFrame) := by decide
theorem test_decode_06 : decodeTableWord 8 0b00000111 = some (.unrecognised06 1#1 zeroFrame) := by decide
theorem test_decode_08 : decodeTableWord 8 0b00001010 = some (.unrecognised08 0b010#3 zeroFrame) := by decide
theorem test_decode_10 : decodeTableWord 8 0b00011001 = some (.unrecognised10 0b1001#4 zeroFrame) := by decide
theorem test_decode_20 : decodeTableWord 8 0b00100110 = some (.unrecognised20 0b00110#5 zeroFrame) := by decide
theorem test_decode_40 : decodeTableWord 8 0b01000001 = some (.unrecognised40 0b000001#6 zeroFrame) := by decide
theorem test_decode_80 : decodeTableWord 8 0b11111111 = some (.unrecognised80 0b1111111#7 zeroFrame) := by decide

/-- 95_test_vectors.md P3, frame 2: every header field, low byte first. -/
theorem test_decode_fields :
    decode 4 [0x04#8, 0x03#8, 0x00#8, 0x02#8, 0x00#8, 0x34#8, 0x12#8, 0xAA#8, 0xBB#8, 0xCC#8, 0xDD#8] =
      .ok (.eepromWrite
        { page := 3#16, length := 2#16, checksum := 0x1234#16,
          payload := [0xAA#8, 0xBB#8, 0xCC#8, 0xDD#8] }) := by rfl

theorem test_decode_short : decode 4 (p2Frame.take 10) = .error (.frameLength 10) := by rfl
theorem test_decode_long : decode 4 (p2Frame ++ [0#8]) = .error (.frameLength 12) := by rfl
theorem test_encode_p2 :
    encode (.program { page := 0#16, length := 4#16, checksum := 0#16,
                       payload := [0x0F#8, 0xC0#8, 0xAA#8, 0xBB#8] }) = p2Frame := by decide

/-! ## Operations (95_test_vectors.md, direct calls; 42_flash_programmer.md; 40_decoder.md R164) -/

theorem test_sample_delay :
    sampleDelay 32 = 3 ∧ sampleDelay 64 = 6 ∧ sampleDelay 10 = 0 ∧ sampleDelay 11 = 1 ∧ sampleDelay 2040 = 191 := by
  decide
theorem test_jump_target :
    jumpTarget Config.ex64 0xC00F#16 = 0x0010#16 ∧ jumpTarget Config.ex64 0xFFFF#16 = 0x4000#16 := by decide
theorem test_fill_order :
    nextIs (fcFill 2 0xBEEF#16 base) (fun t => t.fc.pb.read 2 == 0xEF#8 && t.fc.pb.read 3 == 0xBE#8) = true := by
  decide
theorem test_block_start :
    nextIs (fpStartBlock 0x0E [0x10#8, 0x00#8] base)
      (fun t => t.fp.page == 0x0C && t.fp.blkOff == 2 && t.fp.blkLen == 2 && t.fp.phase == .read) = true := by decide
theorem test_block_empty : faultIs (fpStartBlock 4 [] base) (.flashProtocol .blockRange (.blockStart 4 0)) = true := by
  decide
theorem test_block_crosses_page :
    faultIs (fpStartBlock 3 [1#8, 2#8] base) (.flashProtocol .blockRange (.blockStart 3 2)) = true := by decide
theorem test_erase_misaligned : faultIs (fcErase 2 base) (.flashProtocol .align (.erase 2)) = true := by decide
theorem test_erase_out_of_range : faultIs (fcErase 0x20 base) (.flashProtocol .range (.erase 0x20)) = true := by decide
theorem test_fill_odd : faultIs (fcFill 1 0#16 base) (.flashProtocol .align (.fill 1 0#16)) = true := by decide
theorem test_fill_out_of_range : faultIs (fcFill 4 0#16 base) (.flashProtocol .range (.fill 4 0#16)) = true := by decide
theorem test_commit_unerased : refusedIs (fcCommit 0 base) (.commitOutOfProtocol 0) = true := by decide
theorem test_rww_busy : faultIs (fcRwwEn { base with fc.busyLeft := 1 }) (.flashProtocol .busy .rwwEn) = true := by
  decide
theorem test_read_rww :
    fcRead 0 4 { base with fc.rwwEn := false } = .error (.flashProtocol .rww (.read 0 4)) := by rfl

/-! ## The commands, one step each (41_dispatcher.md) -/

theorem test_no_command : nextIs (exec (.noCommand zeroFrame) dispatch)
    (fun t => t.frame.read 0 == 0#8 && t.boot.lstPhase == .rx && t.dec.phase == .syncFirst) = true := by decide
theorem test_test : nextIs (exec (.test zeroFrame) dispatch)
    (fun t => t.boot.led == false && t.boot.lstPhase == .rx && t.fc.flash == flash0) = true := by decide
theorem test_exit : nextIs (exec (.exit zeroFrame) dispatch)
    (fun t => t.boot.bootState == .listening && t.boot.lstPhase == .rx) = true := by decide
theorem test_unrecognised : nextIs (exec (.unrecognised80 0b1111111#7 zeroFrame) dispatch)
    (fun t => t.frame.read 0 == 0#8 && t.dec.phase == .syncFirst) = true := by decide
/-- The last page below BOOT_START, and the first at it (R213, R222). -/
theorem test_program_last_page : nextIs (exec (.program { zeroFrame with page := 3#16 }) dispatch)
    (fun t => t.fp.page == 12 && t.fp.phase == .erase && t.boot.lstPhase == .progWait) = true := by decide
theorem test_program_boot_page : nextIs (exec (.program { zeroFrame with page := 4#16 }) dispatch)
    (fun t => t.fp.phase == .idle && t.boot.lstPhase == .rx) = true := by decide
theorem test_run : nextIs (exec (.run zeroFrame) { dispatch with sev := 0x0010#16 })
    (fun t => t.fp.page == 12 && t.fp.blkOff == 2 && t.fp.blk.read 0 == 0x10#8 && t.fp.blk.read 1 == 0#8) = true := by
  decide
/-- A length above PAGE_SIZE writes PAGE_SIZE bytes (R215). -/
theorem test_eeprom_long : nextIs (exec (.eepromWrite { zeroFrame with page := 3#16, length := 0xFFFF#16 }) dispatch)
    (fun t => t.ee.base == 12 && t.ee.n == 4#16 && t.boot.lstPhase == .eeWrite) = true := by decide

/-! ## One step of the machine each -/

/-- `withFetchWord` makes the next step run the instruction. -/
theorem test_fetch_word : nextIs (step (State.reset.withFetchWord 8 0x03)) (fun t => t.boot.lstPhase == .runWait) = true := by
  decide
/-- 43_boot_controller.md R301: the timeout wins over the third edge (BOOT-4). -/
theorem test_timeout_wins :
    nextIs (step (drive { base with boot.blinkCnt := 7, boot.timeoutLeft := 1, boot.waitEdgesLeft := 1#2 } high))
      (fun t => t.boot.bootState == .runApplication && t.boot.appCause == .timeout && t.boot.appEntry == 0x4433#16) =
      true := by decide
theorem test_third_edge : nextIs (step (drive { base with boot.waitEdgesLeft := 1#2 } high))
    (fun t => t.boot.bootState == .listening && t.dec.ref && t.dec.phase == .syncFirst) = true := by decide
/-- 40_decoder.md R168: the bit is assigned, most significant first. -/
theorem test_data_bit :
    nextIs (step (drive { rx .dataSample with dec.bitIdx := 9, frame := [(1, 0x80#8)] } high))
      (fun t => t.frame.read 1 == 0xC0#8 && t.dec.bitIdx == 10 && t.dec.phase == .dataEdge) = true := by decide
theorem test_data_bit_clears :
    nextIs (step (drive { rx .dataSample with dec.bitIdx := 8, frame := [(1, 0xFF#8)] } Input.quiet))
      (fun t => t.frame.read 1 == 0x7F#8) = true := by decide
/-- 42_flash_programmer.md R256: the page-zero intercept. -/
theorem test_intercept : nextIs (step (progMasked .fill))
    (fun t => t.sev == 0x0010#16 && t.sevValid && t.fc.pb.read 0 == 0x07#8 && t.fc.pb.read 1 == 0xC0#8) = true := by
  decide
/-- 42_flash_programmer.md R264: the merge. -/
theorem test_merge : nextIs (step (restore .read))
    (fun t => t.fp.m.readList 0 4 == [0x11#8, 0x22#8, 0x10#8, 0x00#8] && t.fp.phase == .erase) = true := by decide
theorem test_erase : nextIs (step (prog .erase))
    (fun t => t.fc.flash.readList 0 4 == [0xFF#8, 0xFF#8, 0xFF#8, 0xFF#8] && !t.cpuIe && t.fp.savedIe &&
      t.fc.busyLeft == 1) = true := by decide

/-! ## Witnesses of the hypotheses of the obligations -/

/-- FLASH with the bootloader jump of EX4 in word 0. -/
def flashV : Memory := [(0, 0x07#8), (1, 0xC0#8), (14, 0x33#8)]

/-- The state after a number of steps, as long as they answer next states. -/
def stepsFrom : Nat → State → State
  | 0, s => s
  | n + 1, s =>
    match step (stepsFrom n s) with
    | .next t => t
    | .fault _ => s
    | .refused _ => s

theorem sequenceRun_stepsFrom (s : State) (n : Nat)
    (h : ∀ k, k < n → (stepsFrom k s).fp.phase ≠ .done ∧ (nextInput (stepsFrom k s)).rst = false ∧
      nextIs (step (stepsFrom k s)) (fun _ => true) = true) : SequenceRun s (stepsFrom n s) := by
  induction n with
  | zero => exact .start
  | succ n ih =>
    obtain ⟨h1, h2, h3⟩ := h n (Nat.lt_succ_self n)
    obtain ⟨t, ht⟩ := exists_next h3
    have : stepsFrom (n + 1) s = t := by simp [stepsFrom, ht]
    rw [this]
    exact .step _ _ (ih fun k hk => h k (Nat.lt_succ_of_lt hk)) h1 h2 ht

theorem witness_inv_reset :
    Inv State.reset := by constructor <;> first | decide | (constructor <;> decide)

theorem witness_encodeThenDecode :
    (Instr.program { zeroFrame with page := 0xFFFF#16 }).wf Config.ex4 = true := by decide

theorem witness_decodeThenEncode :
    ∃ i, decode Config.ex4.pageSize p2Frame = .ok i := ⟨_, rfl⟩

theorem witness_decodeOfLength :
    p2Frame.length = Config.ex4.frameSize ∧ (p2Frame.drop 1).length ≠ Config.ex4.frameSize := by decide

theorem witness_commandByteSelects :
    (∃ b, decodeCommand 0x06#8 zeroFrame = .unrecognised06 b zeroFrame) ∧
    (∃ b, decodeCommand 0x0F#8 zeroFrame = .unrecognised08 b zeroFrame) ∧
    (∃ b, decodeCommand 0x10#8 zeroFrame = .unrecognised10 b zeroFrame) ∧
    (∃ b, decodeCommand 0x3F#8 zeroFrame = .unrecognised20 b zeroFrame) ∧
    (∃ b, decodeCommand 0x7F#8 zeroFrame = .unrecognised40 b zeroFrame) ∧
    (∃ b, decodeCommand 0x80#8 zeroFrame = .unrecognised80 b zeroFrame) := 
  ⟨⟨_, rfl⟩, ⟨_, rfl⟩, ⟨_, rfl⟩, ⟨_, rfl⟩, ⟨_, rfl⟩, ⟨_, rfl⟩⟩

theorem witness_headerFields :
    ∃ i, decode Config.ex4.pageSize (0x02#8 :: 0xFF#8 :: 0x00#8 :: 0#8 :: 1#8 :: 2#8 :: 3#8 :: [0#8, 0#8, 0#8, 0#8]) = .ok i := ⟨_, rfl⟩

theorem witness_powerOn_skip :
    (prog .fill).cfg.wf = true ∧ (nextInput (drive (prog .fill) (resetInput true))).rst = true ∧
      (nextInput (drive (prog .fill) (resetInput true))).skipIn = true := by decide

theorem witness_powerOn_listen :
    (prog .fill).cfg.wf = true ∧ (nextInput (drive (prog .fill) (resetInput false))).rst = true ∧
      (nextInput (drive (prog .fill) (resetInput false))).skipIn = false := by decide

theorem witness_resetStepValues :
    (nextInput (drive hang (resetInput false))).rst = true ∧ (nextInput (drive hang (resetInput false))).cpuIe = some true ∧
      ∃ t, step (drive hang (resetInput false)) = .next t := ⟨by decide, by decide, exists_next (by decide)⟩

theorem witness_resetKeepsOtherPages_idle :
    (nextInput (drive (prog .idle) (resetInput false))).rst = true ∧ (prog .idle).fp.phase = .idle ∧
      ∃ t, step (drive (prog .idle) (resetInput false)) = .next t := ⟨by decide, by decide, exists_next (by decide)⟩

theorem witness_resetKeepsOtherPages_eraseWait :
    (nextInput (drive (prog .eraseWait) (resetInput false))).rst = true ∧ (prog .eraseWait).fp.phase = .eraseWait ∧
      ∃ t, step (drive (prog .eraseWait) (resetInput false)) = .next t := ⟨by decide, by decide, exists_next (by decide)⟩

theorem witness_timerFreeRuns_counts :
    Ordinary (base) ∧ ∃ t, step (base) = .next t := ⟨⟨by decide, by decide⟩, exists_next (by decide)⟩

theorem witness_timerFreeRuns_edge :
    Ordinary (drive (rx .syncFirst) high) ∧ ∃ t, step (drive (rx .syncFirst) high) = .next t := ⟨⟨by decide, by decide⟩, exists_next (by decide)⟩

theorem witness_refused_configuration :
    { base with cfg.pageSize := 2 }.cfg.wf = false := by decide

theorem witness_refused_interrupt :
    (drive hang { Input.quiet with cpuIrq := true }).cfg.wf = true ∧ { hang with cpuIe := false }.cpuIe = false ∧
      (nextInput (drive hang { Input.quiet with cpuIrq := true })).cpuIrq = true ∧
      inCriticalSpan (prog .erase).fp.phase = true ∧ inCriticalSpan (prog .rww).fp.phase = true := by decide

theorem witness_refused_enable :
    (drive (prog .rww) { Input.quiet with cpuIe := some true }).cfg.wf = true ∧
      (nextInput (drive (prog .rww) { Input.quiet with cpuIe := some true })).cpuIe ≠ none ∧
      (nextInput (drive (prog .rww) { Input.quiet with cpuIe := some true })).cpuIrq = false ∧
      inCriticalSpan (drive (prog .rww) { Input.quiet with cpuIe := some true }).fp.phase = true := by decide

theorem witness_bootTransitions_wait :
    Ordinary (base) ∧ ∃ t, step (base) = .next t := ⟨⟨by decide, by decide⟩, exists_next (by decide)⟩

theorem witness_bootTransitions_listening :
    Ordinary (eeWrite 2#16) ∧ ∃ t, step (eeWrite 2#16) = .next t := ⟨⟨by decide, by decide⟩, exists_next (by decide)⟩

theorem witness_bootTransitions_hang :
    Ordinary (hang) ∧ ∃ t, step (hang) = .next t := ⟨⟨by decide, by decide⟩, exists_next (by decide)⟩

theorem witness_bootTransitions_running :
    Ordinary (running) ∧ ∃ t, step (running) = .next t := ⟨⟨by decide, by decide⟩, exists_next (by decide)⟩

theorem witness_portsShowState :
    nextIs (step (eeWrite 1#16)) (fun t => (ports t).eeWe && (ports t).eeAddr == 13 && (ports t).eeData == 0xBB#8) =
      true := by decide

theorem witness_powerOn_slot_page :
    (restore .fill).cfg.wf = true ∧ (nextInput (drive (restore .fill) (resetInput true))).rst = true ∧
      (nextInput (drive (restore .fill) (resetInput true))).skipIn = true ∧
      (restore .fill).fp.page ≤ (restore .fill).cfg.funcAddr := by decide

theorem witness_flashWriters_erase :
    Ordinary (prog .erase) ∧ ∃ t, step (prog .erase) = .next t := ⟨⟨by decide, by decide⟩, exists_next (by decide)⟩

theorem witness_flashWriters_commit :
    Ordinary ({ progMasked .commit with fc.filled := [2, 0] }) ∧ ∃ t, step ({ progMasked .commit with fc.filled := [2, 0] }) = .next t := ⟨⟨by decide, by decide⟩, exists_next (by decide)⟩

theorem witness_frameBufferWriters_bit :
    Ordinary (drive (rx .dataSample) high) ∧
      ∃ t, step (drive (rx .dataSample) high) = .next t ∧ t.frame.read 0 ≠ (rx .dataSample).frame.read 0 := by
  refine ⟨⟨by decide, by decide⟩, ?_⟩
  obtain ⟨t, h, hp⟩ := exists_next_with (p := fun t => t.frame.read 0 == 0x80#8)
    (r := step (drive (rx .dataSample) high)) (by decide)
  exact ⟨t, h, by rw [beq_iff_eq.mp hp]; decide⟩

theorem witness_frameBufferWriters_clear :
    Ordinary (prog .done) ∧ ∃ t, step (prog .done) = .next t ∧ t.frame.read 0 ≠ (prog .done).frame.read 0 := by
  refine ⟨⟨by decide, by decide⟩, ?_⟩
  obtain ⟨t, h, hp⟩ := exists_next_with (p := fun t => t.frame.read 0 == 0#8) (r := step (prog .done)) (by decide)
  exact ⟨t, h, by rw [beq_iff_eq.mp hp]; decide⟩

theorem witness_savedVectorWriters :
    Ordinary (progMasked .fill) ∧ ∃ t, step (progMasked .fill) = .next t ∧ t.sev ≠ (progMasked .fill).sev := by
  refine ⟨⟨by decide, by decide⟩, ?_⟩
  obtain ⟨t, h, hp⟩ := exists_next_with (p := fun t => t.sev == 0x10#16) (r := step (progMasked .fill)) (by decide)
  exact ⟨t, h, by rw [beq_iff_eq.mp hp]; decide⟩

theorem witness_stepRunsDecoded :
    Ordinary dispatch ∧ dispatch.boot.bootState = .listening ∧ dispatch.boot.lstPhase = .dispatch ∧
      ∃ i, decode dispatch.cfg.pageSize (dispatch.frame.readList 0 dispatch.cfg.frameSize) = .ok i := ⟨⟨by decide, by decide⟩, by decide, by decide, ⟨_, rfl⟩⟩

theorem witness_noActionCommands :
    (∃ b, Instr.unrecognised06 1#1 zeroFrame = .unrecognised06 b zeroFrame) ∧ Instr.exit zeroFrame = .exit zeroFrame := ⟨⟨_, rfl⟩, rfl⟩

theorem witness_programCommand :
    dispatch.cfg.wf = true ∧ (3#16).toNat < dispatch.cfg.bootStart / dispatch.cfg.pageSize ∧
      dispatch.cfg.bootStart / dispatch.cfg.pageSize ≤ (4#16).toNat := by decide

theorem witness_runCommand :
    dispatch.cfg.wf = true ∧ Config.ex4b.wf = true := by decide

theorem witness_commandFrame :
    ∃ t, exec (.run zeroFrame) dispatch = .next t := exists_next (by decide)

theorem witness_progWait :
    Ordinary (prog .erase) ∧ Ordinary (prog .done) ∧ (prog .done).boot.bootState = .listening ∧
      (prog .done).boot.lstPhase = .progWait := ⟨⟨by decide, by decide⟩, ⟨by decide, by decide⟩, by decide, by decide⟩

theorem witness_runWait_done :
    Inv (restore .done) ∧ Ordinary (restore .done) ∧ (restore .done).boot.bootState = .listening ∧
      (restore .done).boot.lstPhase = .runWait := 
  ⟨(by constructor <;> first | decide | (constructor <;> decide)), ⟨by decide, by decide⟩, by decide, by decide⟩

theorem witness_runWait_erase :
    Inv (restore .erase) ∧ Ordinary (restore .erase) ∧ (restore .erase).boot.bootState = .listening ∧
      (restore .erase).boot.lstPhase = .runWait := 
  ⟨(by constructor <;> first | decide | (constructor <;> decide)), ⟨by decide, by decide⟩, by decide, by decide⟩

theorem witness_eeWriteStep_1 :
    Inv (eeWrite 1#16) ∧ Ordinary (eeWrite 1#16) ∧ (eeWrite 1#16).boot.bootState = .listening ∧
      (eeWrite 1#16).boot.lstPhase = .eeWrite := 
  ⟨(by constructor <;> first | decide | (constructor <;> decide)), ⟨by decide, by decide⟩, by decide, by decide⟩

theorem witness_eeWriteStep_2 :
    Inv (eeWrite 2#16) ∧ Ordinary (eeWrite 2#16) ∧ (eeWrite 2#16).boot.bootState = .listening ∧
      (eeWrite 2#16).boot.lstPhase = .eeWrite := 
  ⟨(by constructor <;> first | decide | (constructor <;> decide)), ⟨by decide, by decide⟩, by decide, by decide⟩

theorem witness_eepromRun :
    Inv (eeWrite 0#16) ∧ Quiet (eeWrite 0#16) ∧ (eeWrite 0#16).boot.bootState = .listening ∧
      (eeWrite 0#16).boot.lstPhase = .eeWrite ∧ (eeWrite 0#16).ee.i = 0#16 := 
  ⟨(by constructor <;> first | decide | (constructor <;> decide)), ⟨by decide, by decide, by decide, by decide⟩, by decide, by decide, by decide⟩

theorem witness_syncFirst_quiet :
    Inv (drive (rx .syncFirst) Input.quiet) ∧ Ordinary (drive (rx .syncFirst) Input.quiet) ∧
      Receiving (drive (rx .syncFirst) Input.quiet) ∧ (drive (rx .syncFirst) Input.quiet).dec.phase = .syncFirst ∧ (nextInput (drive (rx .syncFirst) Input.quiet)).pinIn = (drive (rx .syncFirst) Input.quiet).dec.ref := 
  ⟨(by constructor <;> first | decide | (constructor <;> decide)), ⟨by decide, by decide⟩, ⟨by decide, by decide⟩, by decide, by decide⟩

theorem witness_syncFirst_edge :
    Inv (drive (rx .syncFirst) high) ∧ Ordinary (drive (rx .syncFirst) high) ∧
      Receiving (drive (rx .syncFirst) high) ∧ (drive (rx .syncFirst) high).dec.phase = .syncFirst ∧ (nextInput (drive (rx .syncFirst) high)).pinIn ≠ (drive (rx .syncFirst) high).dec.ref := 
  ⟨(by constructor <;> first | decide | (constructor <;> decide)), ⟨by decide, by decide⟩, ⟨by decide, by decide⟩, by decide, by decide⟩

theorem witness_syncMeas_last :
    Inv (drive ({ rx .syncMeas with dec.n := 15#5 }) high) ∧ Ordinary (drive ({ rx .syncMeas with dec.n := 15#5 }) high) ∧
      Receiving (drive ({ rx .syncMeas with dec.n := 15#5 }) high) ∧ (drive ({ rx .syncMeas with dec.n := 15#5 }) high).dec.phase = .syncMeas ∧ (nextInput (drive ({ rx .syncMeas with dec.n := 15#5 }) high)).pinIn ≠ (drive ({ rx .syncMeas with dec.n := 15#5 }) high).dec.ref ∧ (drive ({ rx .syncMeas with dec.n := 15#5 }) high).dec.n.toNat + 1 = 16 := 
  ⟨(by constructor <;> first | decide | (constructor <;> decide)), ⟨by decide, by decide⟩, ⟨by decide, by decide⟩, by decide, by decide, by decide⟩

theorem witness_syncMeas_early :
    Inv (drive ({ rx .syncMeas with dec.n := 7#5, dec.acc := 0 }) high) ∧ Ordinary (drive ({ rx .syncMeas with dec.n := 7#5, dec.acc := 0 }) high) ∧
      Receiving (drive ({ rx .syncMeas with dec.n := 7#5, dec.acc := 0 }) high) ∧ (drive ({ rx .syncMeas with dec.n := 7#5, dec.acc := 0 }) high).dec.phase = .syncMeas ∧ (nextInput (drive ({ rx .syncMeas with dec.n := 7#5, dec.acc := 0 }) high)).pinIn ≠ (drive ({ rx .syncMeas with dec.n := 7#5, dec.acc := 0 }) high).dec.ref ∧ (drive ({ rx .syncMeas with dec.n := 7#5, dec.acc := 0 }) high).dec.n.toNat + 1 ≠ 16 := 
  ⟨(by constructor <;> first | decide | (constructor <;> decide)), ⟨by decide, by decide⟩, ⟨by decide, by decide⟩, by decide, by decide, by decide⟩

theorem witness_syncMeas_quiet :
    Inv (drive ({ rx .syncMeas with dec.n := 14#5 }) Input.quiet) ∧ Ordinary (drive ({ rx .syncMeas with dec.n := 14#5 }) Input.quiet) ∧
      Receiving (drive ({ rx .syncMeas with dec.n := 14#5 }) Input.quiet) ∧ (drive ({ rx .syncMeas with dec.n := 14#5 }) Input.quiet).dec.phase = .syncMeas ∧ (nextInput (drive ({ rx .syncMeas with dec.n := 14#5 }) Input.quiet)).pinIn = (drive ({ rx .syncMeas with dec.n := 14#5 }) Input.quiet).dec.ref := 
  ⟨(by constructor <;> first | decide | (constructor <;> decide)), ⟨by decide, by decide⟩, ⟨by decide, by decide⟩, by decide, by decide⟩

theorem witness_sampleDelayFits :
    2040 ≤ 8 * (2 ^ Config.ex4.timerW - 1) := by decide

theorem witness_startSample :
    Inv (drive (rx .startSample) high) ∧ Ordinary (drive (rx .startSample) high) ∧
      Receiving (drive (rx .startSample) high) ∧ (drive (rx .startSample) high).dec.phase = .startSample ∧ ¬nextTmr (drive (rx .startSample) high) < (drive (rx .startSample) high).dec.delay := 
  ⟨(by constructor <;> first | decide | (constructor <;> decide)), ⟨by decide, by decide⟩, ⟨by decide, by decide⟩, by decide, by decide⟩

theorem witness_startSample_early :
    Inv (drive ({ rx .startSample with dec.tmr := 1 }) Input.quiet) ∧ Ordinary (drive ({ rx .startSample with dec.tmr := 1 }) Input.quiet) ∧
      Receiving (drive ({ rx .startSample with dec.tmr := 1 }) Input.quiet) ∧ (drive ({ rx .startSample with dec.tmr := 1 }) Input.quiet).dec.phase = .startSample ∧ nextTmr (drive ({ rx .startSample with dec.tmr := 1 }) Input.quiet) < (drive ({ rx .startSample with dec.tmr := 1 }) Input.quiet).dec.delay := 
  ⟨(by constructor <;> first | decide | (constructor <;> decide)), ⟨by decide, by decide⟩, ⟨by decide, by decide⟩, by decide, by decide⟩

theorem witness_cellEdge_start :
    Inv (drive (rx .startEdge) high) ∧ Ordinary (drive (rx .startEdge) high) ∧
      Receiving (drive (rx .startEdge) high) ∧ (drive (rx .startEdge) high).dec.phase = .startEdge ∧ (nextInput (drive (rx .startEdge) high)).pinIn ≠ (drive (rx .startEdge) high).dec.ref := 
  ⟨(by constructor <;> first | decide | (constructor <;> decide)), ⟨by decide, by decide⟩, ⟨by decide, by decide⟩, by decide, by decide⟩

theorem witness_cellEdge_data :
    Inv (drive (rx .dataEdge) Input.quiet) ∧ Ordinary (drive (rx .dataEdge) Input.quiet) ∧
      Receiving (drive (rx .dataEdge) Input.quiet) ∧ (drive (rx .dataEdge) Input.quiet).dec.phase = .dataEdge ∧ (nextInput (drive (rx .dataEdge) Input.quiet)).pinIn = (drive (rx .dataEdge) Input.quiet).dec.ref := 
  ⟨(by constructor <;> first | decide | (constructor <;> decide)), ⟨by decide, by decide⟩, ⟨by decide, by decide⟩, by decide, by decide⟩

theorem witness_dataSample_last :
    Inv (drive ({ rx .dataSample with dec.bitIdx := 87 }) high) ∧ Ordinary (drive ({ rx .dataSample with dec.bitIdx := 87 }) high) ∧
      Receiving (drive ({ rx .dataSample with dec.bitIdx := 87 }) high) ∧ (drive ({ rx .dataSample with dec.bitIdx := 87 }) high).dec.phase = .dataSample ∧ (drive ({ rx .dataSample with dec.bitIdx := 87 }) high).dec.delay ≤ nextTmr (drive ({ rx .dataSample with dec.bitIdx := 87 }) high) ∧ (drive ({ rx .dataSample with dec.bitIdx := 87 }) high).dec.bitIdx + 1 = (drive ({ rx .dataSample with dec.bitIdx := 87 }) high).cfg.frameBits := 
  ⟨(by constructor <;> first | decide | (constructor <;> decide)), ⟨by decide, by decide⟩, ⟨by decide, by decide⟩, by decide, by decide, by decide⟩

theorem witness_dataSample_first :
    Inv (drive (rx .dataSample) high) ∧ Ordinary (drive (rx .dataSample) high) ∧
      Receiving (drive (rx .dataSample) high) ∧ (drive (rx .dataSample) high).dec.phase = .dataSample ∧ (drive (rx .dataSample) high).dec.delay ≤ nextTmr (drive (rx .dataSample) high) ∧ (drive (rx .dataSample) high).dec.bitIdx + 1 ≠ (drive (rx .dataSample) high).cfg.frameBits := 
  ⟨(by constructor <;> first | decide | (constructor <;> decide)), ⟨by decide, by decide⟩, ⟨by decide, by decide⟩, by decide, by decide, by decide⟩

theorem witness_dataSample_early :
    Inv (drive ({ rx .dataSample with dec.tmr := 1 }) Input.quiet) ∧ Ordinary (drive ({ rx .dataSample with dec.tmr := 1 }) Input.quiet) ∧
      Receiving (drive ({ rx .dataSample with dec.tmr := 1 }) Input.quiet) ∧ (drive ({ rx .dataSample with dec.tmr := 1 }) Input.quiet).dec.phase = .dataSample ∧ nextTmr (drive ({ rx .dataSample with dec.tmr := 1 }) Input.quiet) < (drive ({ rx .dataSample with dec.tmr := 1 }) Input.quiet).dec.delay := 
  ⟨(by constructor <;> first | decide | (constructor <;> decide)), ⟨by decide, by decide⟩, ⟨by decide, by decide⟩, by decide, by decide⟩

theorem witness_silentLineHangs :
    (rx .dataEdge).cfg.wf = true ∧ Quiet (rx .dataEdge) ∧ Receiving (rx .dataEdge) ∧
      edgeWaiting (rx .dataEdge).dec.phase = true ∧ (rx .dataEdge).env.inp.pinIn = (rx .dataEdge).dec.ref ∧
      (rx .dataEdge).fc.busyLeft = 0 ∧ (rx .dataEdge).dec.tmr < 2 ^ (rx .dataEdge).cfg.timerW ∧
      (rx .dataEdge).out.eeWe = false ∧ (rx .dataEdge).out.frameOk = false := 
  ⟨by decide, ⟨by decide, by decide, by decide, by decide⟩, ⟨by decide, by decide⟩, by decide, by decide, by decide, by decide, by decide, by decide⟩

theorem witness_edgeIsTransition :
    Inv (rx .startEdge) ∧ ∃ t, step (rx .startEdge) = .next t ∧ edgeWaiting t.dec.phase = true := by
  refine ⟨(by constructor <;> first | decide | (constructor <;> decide)), ?_⟩
  exact exists_next_with (p := fun t => edgeWaiting t.dec.phase) (by decide)

theorem witness_dataCellParity :
    Inv { rx .dataEdge with env.inputs := traceInputs 1 [true, true, false, false] } ∧
      CalmInputs { rx .dataEdge with env.inputs := traceInputs 1 [true, true, false, false] } ∧
      Receiving { rx .dataEdge with env.inputs := traceInputs 1 [true, true, false, false] } ∧
      (traceInputs 1 [true, true, false, false]).map (·.pinIn) = (!(rx .dataEdge).dec.ref) :: [true, false, false] ∧
      [true, false, false].length = max 1 (rx .dataEdge).dec.delay := 
  ⟨(by constructor <;> first | decide | (constructor <;> decide)), by unfold CalmInputs; decide, ⟨by decide, by decide⟩, by decide, by decide⟩

theorem witness_nominalFrameDecodes :
    Inv { rx .syncFirst with env.inputs := traceInputs 1 (tx 2 false 1 16 p2Frame) } ∧
      CalmInputs { rx .syncFirst with env.inputs := traceInputs 1 (tx 2 false 1 16 p2Frame) } ∧
      Receiving { rx .syncFirst with env.inputs := traceInputs 1 (tx 2 false 1 16 p2Frame) } ∧ (rx .syncFirst).dec.phase = .syncFirst ∧
      2 < 2 ^ (rx .syncFirst).cfg.timerW ∧ p2Frame.length = (rx .syncFirst).cfg.frameSize ∧
      (traceInputs 1 (tx 2 false 1 16 p2Frame)).map (·.pinIn) = tx 2 (rx .syncFirst).dec.ref 1 16 p2Frame := by
  refine ⟨(by constructor <;> first | decide | (constructor <;> decide)), ?_, ⟨by decide, by decide⟩, by decide, by decide, by decide, ?_⟩
  · intro i hi
    obtain ⟨b, -, rfl⟩ := List.mem_map.mp hi
    exact ⟨rfl, rfl⟩
  · simp [traceInputs, List.map_map, Function.comp_def, rx, base, State.reset]

theorem witness_invertedSignal :
    (nextInput (rx .dataSample)).rst = false := by decide

theorem witness_readAndMerge :
    Inv (restore .read) ∧ Ordinary (restore .read) ∧
      (restore .read).fp.phase = .read := 
  ⟨(by constructor <;> first | decide | (constructor <;> decide)), ⟨by decide, by decide⟩, by decide⟩

theorem witness_eraseStep_short :
    Inv (drive (prog .erase) { Input.quiet with fcLat := 1 }) ∧ Ordinary (drive (prog .erase) { Input.quiet with fcLat := 1 }) ∧
      (drive (prog .erase) { Input.quiet with fcLat := 1 }).fp.phase = .erase ∧ 1 ≤ (nextInput (drive (prog .erase) { Input.quiet with fcLat := 1 })).fcLat ∧ (nextInput (drive (prog .erase) { Input.quiet with fcLat := 1 })).fcLat ≤ (drive (prog .erase) { Input.quiet with fcLat := 1 }).cfg.maxErase := 
  ⟨(by constructor <;> first | decide | (constructor <;> decide)), ⟨by decide, by decide⟩, by decide, by decide, by decide⟩

theorem witness_eraseStep_long :
    Inv (drive (prog .erase) { Input.quiet with fcLat := 4 }) ∧ Ordinary (drive (prog .erase) { Input.quiet with fcLat := 4 }) ∧
      (drive (prog .erase) { Input.quiet with fcLat := 4 }).fp.phase = .erase ∧ (nextInput (drive (prog .erase) { Input.quiet with fcLat := 4 })).fcLat ≤ (drive (prog .erase) { Input.quiet with fcLat := 4 }).cfg.maxErase := 
  ⟨(by constructor <;> first | decide | (constructor <;> decide)), ⟨by decide, by decide⟩, by decide, by decide⟩

theorem witness_waitPhases_busy :
    Inv ({ progMasked .eraseWait with fc.busyLeft := 2 }) ∧ Ordinary ({ progMasked .eraseWait with fc.busyLeft := 2 }) ∧
      waitsForFlash ({ progMasked .eraseWait with fc.busyLeft := 2 }).fp.phase = true ∧ 0 < ({ progMasked .eraseWait with fc.busyLeft := 2 }).fc.busyLeft - 1 := 
  ⟨(by constructor <;> first | decide | (constructor <;> decide)), ⟨by decide, by decide⟩, by decide, by decide⟩

theorem witness_waitPhases_erased :
    Inv ({ progMasked .eraseWait with fc.busyLeft := 1 }) ∧ Ordinary ({ progMasked .eraseWait with fc.busyLeft := 1 }) ∧
      ({ progMasked .eraseWait with fc.busyLeft := 1 }).fp.phase = .eraseWait ∧ ¬0 < ({ progMasked .eraseWait with fc.busyLeft := 1 }).fc.busyLeft - 1 := 
  ⟨(by constructor <;> first | decide | (constructor <;> decide)), ⟨by decide, by decide⟩, by decide, by decide⟩

theorem witness_waitPhases_lastFill :
    Inv ({ progMasked .fillWait with fp.idx := 1, fc.filled := [2, 0] }) ∧ Ordinary ({ progMasked .fillWait with fp.idx := 1, fc.filled := [2, 0] }) ∧
      ({ progMasked .fillWait with fp.idx := 1, fc.filled := [2, 0] }).fp.phase = .fillWait ∧ ({ progMasked .fillWait with fp.idx := 1, fc.filled := [2, 0] }).fp.idx + 1 = ({ progMasked .fillWait with fp.idx := 1, fc.filled := [2, 0] }).cfg.pageWords := 
  ⟨(by constructor <;> first | decide | (constructor <;> decide)), ⟨by decide, by decide⟩, by decide, by decide⟩

theorem witness_waitPhases_fill :
    Inv ({ progMasked .fillWait with fc.filled := [0] }) ∧ Ordinary ({ progMasked .fillWait with fc.filled := [0] }) ∧
      ({ progMasked .fillWait with fc.filled := [0] }).fp.phase = .fillWait ∧ ({ progMasked .fillWait with fc.filled := [0] }).fp.idx + 1 ≠ ({ progMasked .fillWait with fc.filled := [0] }).cfg.pageWords := 
  ⟨(by constructor <;> first | decide | (constructor <;> decide)), ⟨by decide, by decide⟩, by decide, by decide⟩

theorem witness_waitPhases_committed :
    Inv ({ progMasked .commitWait with fc.busyLeft := 1 }) ∧ Ordinary ({ progMasked .commitWait with fc.busyLeft := 1 }) ∧
      ({ progMasked .commitWait with fc.busyLeft := 1 }).fp.phase = .commitWait ∧ ¬0 < ({ progMasked .commitWait with fc.busyLeft := 1 }).fc.busyLeft - 1 := 
  ⟨(by constructor <;> first | decide | (constructor <;> decide)), ⟨by decide, by decide⟩, by decide, by decide⟩

theorem witness_fillStep_intercept :
    Inv (drive (progMasked .fill) { Input.quiet with fcLat := 0 }) ∧ Ordinary (drive (progMasked .fill) { Input.quiet with fcLat := 0 }) ∧
      (drive (progMasked .fill) { Input.quiet with fcLat := 0 }).fp.phase = .fill ∧ (nextInput (drive (progMasked .fill) { Input.quiet with fcLat := 0 })).fcLat ≤ (drive (progMasked .fill) { Input.quiet with fcLat := 0 }).cfg.maxFill ∧ (drive (progMasked .fill) { Input.quiet with fcLat := 0 }).fp.kind = .fullPage ∧ (drive (progMasked .fill) { Input.quiet with fcLat := 0 }).fp.page = 0 ∧ (drive (progMasked .fill) { Input.quiet with fcLat := 0 }).fp.idx = 0 := 
  ⟨(by constructor <;> first | decide | (constructor <;> decide)), ⟨by decide, by decide⟩, by decide, by decide, by decide⟩

theorem witness_fillStep_second :
    Inv (drive ({ progMasked .fill with fp.idx := 1, fc.filled := [0] }) { Input.quiet with fcLat := 4 }) ∧ Ordinary (drive ({ progMasked .fill with fp.idx := 1, fc.filled := [0] }) { Input.quiet with fcLat := 4 }) ∧
      (drive ({ progMasked .fill with fp.idx := 1, fc.filled := [0] }) { Input.quiet with fcLat := 4 }).fp.phase = .fill ∧ (nextInput (drive ({ progMasked .fill with fp.idx := 1, fc.filled := [0] }) { Input.quiet with fcLat := 4 })).fcLat ≤ (drive ({ progMasked .fill with fp.idx := 1, fc.filled := [0] }) { Input.quiet with fcLat := 4 }).cfg.maxFill ∧ ¬((drive ({ progMasked .fill with fp.idx := 1, fc.filled := [0] }) { Input.quiet with fcLat := 4 }).fp.kind = .fullPage ∧ (drive ({ progMasked .fill with fp.idx := 1, fc.filled := [0] }) { Input.quiet with fcLat := 4 }).fp.page = 0 ∧ (drive ({ progMasked .fill with fp.idx := 1, fc.filled := [0] }) { Input.quiet with fcLat := 4 }).fp.idx = 0) := 
  ⟨(by constructor <;> first | decide | (constructor <;> decide)), ⟨by decide, by decide⟩, by decide, by decide, by decide⟩

theorem witness_commitStep :
    Inv (drive ({ progMasked .commit with fc.filled := [2, 0] }) { Input.quiet with fcLat := 4 }) ∧ Ordinary (drive ({ progMasked .commit with fc.filled := [2, 0] }) { Input.quiet with fcLat := 4 }) ∧
      (drive ({ progMasked .commit with fc.filled := [2, 0] }) { Input.quiet with fcLat := 4 }).fp.phase = .commit ∧ 1 ≤ (nextInput (drive ({ progMasked .commit with fc.filled := [2, 0] }) { Input.quiet with fcLat := 4 })).fcLat ∧ (nextInput (drive ({ progMasked .commit with fc.filled := [2, 0] }) { Input.quiet with fcLat := 4 })).fcLat ≤ (drive ({ progMasked .commit with fc.filled := [2, 0] }) { Input.quiet with fcLat := 4 }).cfg.maxWrite := 
  ⟨(by constructor <;> first | decide | (constructor <;> decide)), ⟨by decide, by decide⟩, by decide, by decide, by decide⟩

theorem witness_rwwStep :
    Inv (progMasked .rww) ∧ Ordinary (progMasked .rww) ∧
      (progMasked .rww).fp.phase = .rww := 
  ⟨(by constructor <;> first | decide | (constructor <;> decide)), ⟨by decide, by decide⟩, by decide⟩

theorem witness_blockStart_fits :
    1 ≤ [0x10#8, 0x00#8, 0x01#8].length ∧ [0x10#8, 0x00#8, 0x01#8].length < base.cfg.pageSize ∧
      0x1D % base.cfg.pageSize + [0x10#8, 0x00#8, 0x01#8].length ≤ base.cfg.pageSize ∧
      0x1D + [0x10#8, 0x00#8, 0x01#8].length ≤ base.cfg.flashSize := by decide

theorem witness_blockStart_fault :
    base.cfg.pageSize < 3 % base.cfg.pageSize + [0x10#8, 0x00#8].length ∧ base.cfg.flashSize < 0x1F + [0x10#8, 0x00#8].length ∧
      base.cfg.pageSize ≤ [0#8, 0#8, 0#8, 0#8].length ∧ ([] : List Byte).length < 1 := by decide

theorem witness_pageZeroProgram :
    ({ dispatch with boot.lstPhase := .progWait } : State).boot.bootState = .listening ∧ ({ dispatch with boot.lstPhase := .progWait } : State).boot.lstPhase = .progWait ∧
      ∃ t, SequenceRun (fpStartFull 0 { dispatch with boot.lstPhase := .progWait }) t ∧ t.fp.phase = .done := ⟨by decide, by decide, stepsFrom 9 (fpStartFull 0 { dispatch with boot.lstPhase := .progWait }), sequenceRun_stepsFrom _ _ (by decide), by decide⟩

theorem witness_otherPageProgram :
    ({ dispatch with boot.lstPhase := .progWait } : State).boot.lstPhase = .progWait ∧ 4 ≠ 0 ∧
      ∃ t, SequenceRun (fpStartFull 4 { dispatch with boot.lstPhase := .progWait }) t ∧ t.fp.phase = .done := ⟨by decide, by decide, stepsFrom 9 (fpStartFull 4 { dispatch with boot.lstPhase := .progWait }), sequenceRun_stepsFrom _ _ (by decide), by decide⟩

theorem witness_blockRoundTrip :
    ∃ u, fpStartBlock 0x0E [0x10#8, 0x00#8] { dispatch with boot.lstPhase := .runWait } = .next u ∧
      ∃ t, SequenceRun u t ∧ t.fp.phase = .done := 
  ⟨_, rfl, stepsFrom 10 _, sequenceRun_stepsFrom _ _ (by decide), by decide⟩

theorem witness_interruptEnableRestored :
    (prog .erase).boot.bootState = .listening ∧ (prog .erase).fp.phase = .erase ∧
      ∃ t, SequenceRun (prog .erase) t ∧ t.fp.phase = .done := ⟨by decide, by decide, stepsFrom 9 (prog .erase), sequenceRun_stepsFrom _ _ (by decide), by decide⟩

theorem witness_selfPreservation :
    Inv (prog .erase) ∧ (∃ t, step (prog .erase) = .next t) ∧ (prog .erase).cfg.bootStart ≤ 0x1F := 
  ⟨(by constructor <;> first | decide | (constructor <;> decide)), exists_next (by decide), by decide⟩

theorem witness_vectorInvariant :
    Inv { prog .erase with fc.flash := flashV } ∧ VectorKept { prog .erase with fc.flash := flashV } ∧
      ∃ t, step { prog .erase with fc.flash := flashV } = .next t := 
  ⟨(by constructor <;> first | decide | (constructor <;> decide)), by unfold VectorKept; decide, exists_next (by decide)⟩

theorem witness_vectorInvariant_filling :
    Inv { progMasked .fill with fp.idx := 1, fc.filled := [0], fc.pb := [(0, 0x07#8), (1, 0xC0#8)] } ∧
      VectorKept { progMasked .fill with fp.idx := 1, fc.filled := [0], fc.pb := [(0, 0x07#8), (1, 0xC0#8)] } ∧
      ∃ t, step { progMasked .fill with fp.idx := 1, fc.filled := [0], fc.pb := [(0, 0x07#8), (1, 0xC0#8)] } = .next t := 
  ⟨(by constructor <;> first | decide | (constructor <;> decide)), by unfold VectorKept; decide, exists_next (by decide)⟩

theorem witness_stepKeepsInv :
    Inv (restore .read) ∧ ∃ t, step (restore .read) = .next t := 
  ⟨(by constructor <;> first | decide | (constructor <;> decide)), exists_next (by decide)⟩

theorem witness_noFaultAndProgress :
    Inv (prog .erase) ∧ Ordinary (prog .erase) ∧ LatencyOk (prog .erase) := 
  ⟨(by constructor <;> first | decide | (constructor <;> decide)), ⟨by decide, by decide⟩, by unfold LatencyOk; decide⟩

theorem witness_fetchLegalAtHandoff :
    Inv running ∧ running.boot.bootState = .runApplication := ⟨(by constructor <;> first | decide | (constructor <;> decide)), by decide⟩

theorem witness_waitSignalStep_blink :
    Inv ({ base with boot.blinkCnt := 7 }) ∧ Ordinary ({ base with boot.blinkCnt := 7 }) ∧
      ({ base with boot.blinkCnt := 7 }).boot.bootState = .waitSignal ∧ ({ base with boot.blinkCnt := 7 }).boot.blinkCnt + 1 = ({ base with boot.blinkCnt := 7 }).cfg.blinkTicks := 
  ⟨(by constructor <;> first | decide | (constructor <;> decide)), ⟨by decide, by decide⟩, by decide, by decide⟩

theorem witness_waitSignalStep_timeout :
    Inv (drive ({ base with boot.blinkCnt := 7, boot.timeoutLeft := 1, boot.waitEdgesLeft := 1#2 }) high) ∧ Ordinary (drive ({ base with boot.blinkCnt := 7, boot.timeoutLeft := 1, boot.waitEdgesLeft := 1#2 }) high) ∧
      (drive ({ base with boot.blinkCnt := 7, boot.timeoutLeft := 1, boot.waitEdgesLeft := 1#2 }) high).boot.blinkCnt + 1 = (drive ({ base with boot.blinkCnt := 7, boot.timeoutLeft := 1, boot.waitEdgesLeft := 1#2 }) high).cfg.blinkTicks ∧ (drive ({ base with boot.blinkCnt := 7, boot.timeoutLeft := 1, boot.waitEdgesLeft := 1#2 }) high).boot.timeoutLeft = 1 := 
  ⟨(by constructor <;> first | decide | (constructor <;> decide)), ⟨by decide, by decide⟩, by decide⟩

theorem witness_waitSignalStep_third :
    Inv (drive ({ base with boot.waitEdgesLeft := 1#2 }) high) ∧ Ordinary (drive ({ base with boot.waitEdgesLeft := 1#2 }) high) ∧
      (drive ({ base with boot.waitEdgesLeft := 1#2 }) high).boot.bootState = .waitSignal ∧ (drive ({ base with boot.waitEdgesLeft := 1#2 }) high).boot.blinkCnt + 1 ≠ (drive ({ base with boot.waitEdgesLeft := 1#2 }) high).cfg.blinkTicks ∧ (nextInput (drive ({ base with boot.waitEdgesLeft := 1#2 }) high)).pinIn ≠ (drive ({ base with boot.waitEdgesLeft := 1#2 }) high).boot.waitRef ∧ (drive ({ base with boot.waitEdgesLeft := 1#2 }) high).boot.waitEdgesLeft = 1#2 := 
  ⟨(by constructor <;> first | decide | (constructor <;> decide)), ⟨by decide, by decide⟩, by decide, by decide, by decide⟩

theorem witness_waitSignalStep_second :
    Inv (drive ({ base with boot.waitEdgesLeft := 2#2 }) high) ∧ Ordinary (drive ({ base with boot.waitEdgesLeft := 2#2 }) high) ∧
      ¬((nextInput (drive ({ base with boot.waitEdgesLeft := 2#2 }) high)).pinIn ≠ (drive ({ base with boot.waitEdgesLeft := 2#2 }) high).boot.waitRef ∧ (drive ({ base with boot.waitEdgesLeft := 2#2 }) high).boot.waitEdgesLeft = 1#2) := 
  ⟨(by constructor <;> first | decide | (constructor <;> decide)), ⟨by decide, by decide⟩, by decide⟩

theorem witness_timeoutRun :
    Inv { base with env.inputs := List.replicate 30 Input.quiet ++ [high, Input.quiet] } ∧
      CalmInputs { base with env.inputs := List.replicate 30 Input.quiet ++ [high, Input.quiet] } ∧
      base.boot.bootState = .waitSignal ∧ base.boot.waitEdgesLeft = 3#2 ∧ base.boot.timeoutLeft = base.cfg.bootTimeout ∧
      base.boot.blinkCnt = 0 ∧
      (List.replicate 30 Input.quiet ++ [high, Input.quiet]).length = base.cfg.bootTimeout * base.cfg.blinkTicks ∧
      levelChanges base.boot.waitRef ((List.replicate 30 Input.quiet ++ [high, Input.quiet]).map (·.pinIn)) < 3 := 
  ⟨(by constructor <;> first | decide | (constructor <;> decide)), by unfold CalmInputs; decide,
    by decide, by decide, by decide, by decide, by decide, by decide⟩

theorem witness_terminalStates :
    Ordinary running ∧ running.boot.bootState = .runApplication ∧ Ordinary hang ∧ hang.boot.bootState = .errorHang ∧
      hang.boot.blinkCnt + 1 = hang.cfg.fastBlinkTicks := ⟨⟨by decide, by decide⟩, by decide, ⟨by decide, by decide⟩, by decide, by decide⟩

end Sys2Proof.Machine.Tests
end

section
/-! The refusals of a step (00_scope.md R8, 70_reset_and_hazards.md R385 and R393): one lemma for each branch of
`stepRefusal` that refuses, and the step that answers the refusal. -/

namespace Sys2Proof.Machine

variable {s : State}

/-- What the front of a step refuses, the step refuses. -/
theorem step_of_stepRefusal {r : Refusal} (h : stepRefusal (sampleInputs s) = some r) : step s = .refused r := by
  simp [step, h]

theorem stepRefusal_of_not_wf (hw : s.cfg.wf = false) : stepRefusal s = some .illFormedConfiguration :=
  if_pos hw

theorem stepRefusal_of_masked_interrupt (hw : s.cfg.wf = true) (hr : s.env.inp.rst = false)
    (hi : s.env.inp.cpuIrq = true) (hm : s.cpuIe = false ∨ inCriticalSpan s.fp.phase = true) :
    stepRefusal s = some .interruptWhileMasked := by
  simp [stepRefusal, hw, hr, hi, hm]

theorem stepRefusal_of_enable_in_span (hw : s.cfg.wf = true) (hr : s.env.inp.rst = false)
    (hi : s.env.inp.cpuIrq = false) (he : s.env.inp.cpuIe ≠ none) (hp : inCriticalSpan s.fp.phase = true) :
    stepRefusal s = some .interruptEnableTaken := by
  simp [stepRefusal, hw, hr, hi, hp, Option.isSome_iff_ne_none.mpr he]

/-- Settles O14: sampling keeps the configuration, `cpu_ie` and the programmer, so each clause is one branch of
`stepRefusal` at the sampled state. -/
theorem refusedSteps : Obligations.RefusedSteps := by
  intro s
  refine ⟨fun hw => ?illFormed, fun hw hr hi hm => ?masked, fun hw hr hi he hp => ?enable⟩
  case illFormed => exact step_of_stepRefusal (stepRefusal_of_not_wf (by simpa using hw))
  case masked =>
    exact step_of_stepRefusal (stepRefusal_of_masked_interrupt (by simpa using hw) hr hi (by simpa using hm))
  case enable =>
    exact step_of_stepRefusal (stepRefusal_of_enable_in_span (by simpa using hw) hr hi he (by simpa using hp))

/-- The reset state with `cpu_ie` = 0, about to sample an interrupt. -/
def interruptedAtReset : State :=
  { State.reset with cpuIe := false, env.inputs := [{ Input.quiet with cpuIrq := true }] }

/-- One state meets every condition of the masked interrupt's clause. -/
theorem step_interruptedAtReset : step interruptedAtReset = .refused .interruptWhileMasked := by
  obtain ⟨-, masked, -⟩ := refusedSteps interruptedAtReset
  exact masked (by decide) (by decide) (by decide) (.inl rfl)

end Sys2Proof.Machine
end

section
/-! What each rule of the controller can do: one inversion lemma for each rule that answers a next state in more than
one way. -/

namespace Sys2Proof.Machine

variable {s t : State}

/-- One command (41_dispatcher.md R211 to R217): it ends the dispatch, starts a page program below BOOT_START, starts
the vector restore, or starts an EEPROM write. -/
theorem exec_next {i : Instr} (h : exec i s = .next t) :
    t = dispatchEnd s ∨
    (∃ f : Frame, pageAddr s.cfg f.page < s.cfg.bootStart ∧
      t = { fpStartFull (pageAddr s.cfg f.page) s with boot.lstPhase := .progWait }) ∨
    t = { blockResult s.cfg.funcAddr (leBytes s.sev) s with boot.lstPhase := .runWait } ∨
    ∃ f : Frame, execEepromWrite f s = .next t := by
  cases i with
  | program f =>
    simp only [exec, execProgram] at h
    split at h
    · next hlt => exact .inr (.inl ⟨f, hlt, (Host.Outcome.next.inj h).symm⟩)
    · exact .inl (Host.Outcome.next.inj h).symm
  | run f =>
    obtain ⟨u, hu, ht⟩ := andThen_next.mp h
    obtain ⟨-, -, -, -, rfl⟩ := fpStartBlock_next.mp hu
    exact .inr (.inr (.inl (Host.Outcome.next.inj ht).symm))
  | eepromWrite f => exact .inr (.inr (.inr ⟨f, h⟩))
  | _ => exact .inl (Host.Outcome.next.inj h).symm

/-- WAIT_SIGNAL (43_boot_controller.md R301): the timeout, the third edge, an earlier edge, or none. -/
theorem waitSignalStep_next (h : waitSignalStep s = .next t) :
    (handoff .timeout (waitSchedule s) = .next t) ∨
    (¬ (blinkTick s = true ∧ s.boot.timeoutLeft = 1) ∧
      (t = enterListening (waitSchedule s) ∨
       (s.boot.waitEdgesLeft ≠ 1#2 ∧
         t = { waitSchedule s with boot.waitEdgesLeft := s.boot.waitEdgesLeft - 1#2 }) ∨
       t = waitSchedule s)) := by
  unfold waitSignalStep at h
  split_ifs at h with hx he h1
  · exact .inl h
  all_goals
    rw [Bool.and_eq_true, beq_iff_eq] at hx
    cases h
    simp [*]

/-- PROG_WAIT (41_dispatcher.md R218): the end of a finished page program, or the programmer's step. -/
theorem progWaitStep_next (h : progWaitStep s = .next t) :
    (s.fp.phase = .done ∧ t = dispatchEnd (toggleLed { s with fp.phase := .idle })) ∨ programmerStep s = .next t := by
  unfold progWaitStep at h
  split at h
  · next hd => exact .inl ⟨hd, (Host.Outcome.next.inj h).symm⟩
  · exact .inr h

/-- RUN_WAIT (41_dispatcher.md R219): the hand-off after a finished restore, or the programmer's step. -/
theorem runWaitStep_next (h : runWaitStep s = .next t) :
    (s.fp.phase = .done ∧ t = handoffResult .run (clearCommand { s with fp.phase := .idle })) ∨
    programmerStep s = .next t := by
  unfold runWaitStep at h
  split at h
  · next hd =>
    obtain ⟨-, -, -, ht⟩ := handoff_next.mp h
    exact .inl ⟨hd, ht⟩
  · exact .inr h

end Sys2Proof.Machine
end

section
/-! The invariant of the block is kept. First the front of a step and the updates that several rules share, then each
rule, then the step. A proof lists the clauses of `Inv` that the update reaches; every other clause is that of the
state before. -/

namespace Sys2Proof.Machine

variable {s t : State}

/-! ## Byte arrays and configuration -/

theorem Memory.ok_writeList {m : Memory} {n : Nat} (h : MemoryOk n m) {a : Nat} {bs : List Byte}
    (ha : a + bs.length ≤ n) : MemoryOk n (m.writeList a bs) :=
  ⟨Memory.wf_writeList bs a h.1, Memory.bound_writeList bs a h.2 ha⟩

theorem Memory.ok_write {m : Memory} {n : Nat} (h : MemoryOk n m) {a : Nat} (v : Byte) (ha : a < n) :
    MemoryOk n (m.write a v) :=
  ⟨Memory.wf_write a v h.1, Memory.bound_write v h.2 ha⟩

/-- A byte array of `n` draws (00_scope.md R12). -/
theorem drawn_ok (k n : Nat) : MemoryOk n (Memory.writeList [] 0 (drawBytes k n)) :=
  Memory.ok_writeList ⟨Memory.wf_nil, by simp⟩ (by simp)

/-! ## The front of a step -/

/-- Sampling reaches no clause. -/
theorem Inv.sampleInputs (h : Inv s) : Inv (sampleInputs s) := by
  rw [sampleInputs_eq]
  exact { h with ranges := { h.ranges with }, arrays := { h.arrays with } }

theorem inCriticalSpan_of_interruptsMasked {p : FpPhase} (h : interruptsMasked p = true) :
    inCriticalSpan p = true := by
  cases p <;> trivial

/-- The front of a step keeps the invariant where the CPU leaves its interrupt enable alone in the critical section. -/
theorem Inv.tick (h : Inv s) (hcpu : inCriticalSpan s.fp.phase = true → s.env.inp.cpuIe = none) : Inv (tick s) :=
  { h with
    ranges := { h.ranges with tmr := Nat.mod_lt _ (Nat.two_pow_pos _) }
    arrays := { h.arrays with }
    busy := fun hw => by simp [h.busy hw]
    masked := fun hm => by simp [hcpu (inCriticalSpan_of_interruptsMasked hm), h.masked hm] }

/-! ## The clauses of the invariant in four groups

A rule reaches few of them: its proof gives each group it reaches, by one of the lemmas below where the phase after the
rule decides the group. -/

/-- The clauses about the configuration, the ranges, the arrays, and the Boot Controller. -/
structure BaseClauses (t : State) : Prop where
  cfg : t.cfg.wf = true
  ranges : Ranges t
  arrays : Arrays t
  decOk : t.dec.ok = true
  noHang : t.boot.bootState ≠ .errorHang
  waiting : t.boot.bootState = .waitSignal →
    1 ≤ t.boot.timeoutLeft ∧ t.boot.blinkCnt < t.cfg.blinkTicks ∧ t.boot.waitEdgesLeft ≠ 0#2
  decoding : t.dec.phase ≠ .idle ↔ t.boot.bootState = .listening ∧ t.boot.lstPhase = .rx

/-- The clauses about what the decoder has measured and has left to store. -/
structure ReceptionClauses (t : State) : Prop where
  measuring : t.dec.phase = .syncMeas → t.dec.n.toNat < 16
  summing : t.dec.phase = .syncMeas → t.dec.acc ≤ (t.dec.n.toNat - 8) * (2 ^ t.cfg.timerW - 1)
  estimate : afterSync t.dec.phase = true → t.dec.delay = 3 * t.dec.acc / 32
  receiving : t.dec.phase = .dataEdge ∨ t.dec.phase = .dataSample → t.dec.bitIdx < t.cfg.frameBits

/-- The clauses about when a sequence of the programmer runs, and on which page. -/
structure SequenceClauses (t : State) : Prop where
  programming : t.fp.phase ≠ .idle ↔
    t.boot.bootState = .listening ∧ (t.boot.lstPhase = .progWait ∨ t.boot.lstPhase = .runWait)
  kind : t.fp.phase ≠ .idle →
    (t.boot.lstPhase = .progWait → t.fp.kind = .fullPage) ∧ (t.boot.lstPhase = .runWait → t.fp.kind = .block)
  reading : t.fp.phase = .read → t.fp.kind = .block
  page : t.fp.phase ≠ .idle → t.fp.page % t.cfg.pageSize = 0 ∧ t.fp.page + t.cfg.pageSize ≤ t.cfg.bootStart
  slot : t.fp.phase ≠ .idle → t.fp.kind = .block →
    t.fp.page + t.cfg.pageSize = t.cfg.bootStart ∧ t.fp.blkOff + 2 = t.cfg.pageSize ∧ t.fp.blkLen = 2

/-- The clauses about the flash controller and the critical section. -/
structure FlashClauses (t : State) : Prop where
  filling : t.fp.phase = .fill ∨ t.fp.phase = .fillWait → t.fp.idx < t.cfg.pageWords
  busy : waitsForFlash t.fp.phase = false → t.fc.busyLeft = 0
  rww : t.fc.rwwEn = !interruptsMasked t.fp.phase
  masked : interruptsMasked t.fp.phase = true → t.cpuIe = false
  erased : pageErased t.fp.phase = true → t.fc.erased = some t.fp.page
  filled :
    (t.fp.phase = .fill → ∀ k < t.fp.idx, 2 * k ∈ t.fc.filled) ∧
    (t.fp.phase = .fillWait → ∀ k < t.fp.idx + 1, 2 * k ∈ t.fc.filled) ∧
    (t.fp.phase = .commit → ∀ k < t.cfg.pageWords, 2 * k ∈ t.fc.filled)

theorem Inv.of_clauses (b : BaseClauses t) (r : ReceptionClauses t) (q : SequenceClauses t) (f : FlashClauses t) :
    Inv t :=
  { b, r, q, f with }

/-- Before the first measured interval there is nothing to say of the reception. -/
theorem ReceptionClauses.of_unmeasured (hp : t.dec.phase = .idle ∨ t.dec.phase = .syncFirst) :
    ReceptionClauses t := by
  constructor <;> rcases hp with hp | hp <;> simp [hp, afterSync]

/-- Without a sequence only its absence has to be shown. -/
theorem SequenceClauses.of_idle (hp : t.fp.phase = .idle)
    (hn : ¬ (t.boot.bootState = .listening ∧ (t.boot.lstPhase = .progWait ∨ t.boot.lstPhase = .runWait))) :
    SequenceClauses t := by
  constructor
  case programming => exact iff_of_false (not_not.mpr hp) hn
  all_goals simp [hp]

/-- A running sequence keeps its kind, its page and its block through every phase after READ. -/
theorem Inv.sequence_runs (h : Inv s) (hne : s.fp.phase ≠ .idle) (hidle : t.fp.phase ≠ .idle)
    (hread : t.fp.phase ≠ .read) (hcfg : t.cfg = s.cfg) (hboot : t.boot = s.boot)
    (hfp : t.fp = { s.fp with
      phase := t.fp.phase, idx := t.fp.idx, savedIe := t.fp.savedIe, m := t.fp.m }) : SequenceClauses t where
  programming := by rw [hboot]; exact iff_of_true hidle (h.programming.mp hne)
  kind _ := by rw [hboot, hfp]; exact h.kind hne
  reading hr := absurd hr hread
  page _ := by rw [hcfg, hfp]; exact h.page hne
  slot _ := by rw [hcfg, hfp]; exact h.slot hne

theorem interruptsMasked_of_pageErased {p : FpPhase} (h : pageErased p = true) : interruptsMasked p = true := by
  cases p <;> trivial

/-- Outside the critical section the controller is idle and flash reads are enabled. -/
theorem FlashClauses.of_unmasked (hp : interruptsMasked t.fp.phase = false) (hb : t.fc.busyLeft = 0)
    (hr : t.fc.rwwEn = true) : FlashClauses t :=
  have hout : ¬ interruptsMasked t.fp.phase = true := by simp [hp]
  { filling := fun h => absurd (by rcases h with h | h <;> rw [h] <;> rfl) hout
    busy := fun _ => hb
    rww := by rw [hr, hp]; rfl
    masked := fun h => absurd h hout
    erased := fun h => absurd (interruptsMasked_of_pageErased h) hout
    filled :=
      ⟨fun h => absurd (by rw [h]; rfl) hout, fun h => absurd (by rw [h]; rfl) hout,
        fun h => absurd (by rw [h]; rfl) hout⟩ }

/-! ## Shared updates -/

/-- The command byte lies in the frame buffer. -/
theorem Inv.clearCommand (h : Inv s) : Inv (clearCommand s) :=
  { h with
    ranges := { h.ranges with }
    arrays := { h.arrays with
      frame := Memory.ok_write (n := s.cfg.frameSize) h.arrays.frame 0#8 (by simp [Config.frameSize]) } }

theorem Inv.toggleLed (h : Inv s) : Inv (toggleLed s) :=
  { h with ranges := { h.ranges with }, arrays := { h.arrays with } }

/-- A hand-off leaves the decoder and the programmer idle (43_boot_controller.md R306). -/
theorem Inv.handoffResult (h : Inv s) (cause : AppCause) (hb : s.fc.busyLeft = 0) (hr : s.fc.rwwEn = true) :
    Inv (handoffResult cause s) :=
  .of_clauses
    { h with
      ranges := { h.ranges with }
      arrays := { h.arrays with }
      noHang := nofun
      waiting := nofun
      decoding := by simp [Machine.handoffResult] }
    (.of_unmeasured (.inl rfl)) (.of_idle rfl nofun) (.of_unmasked rfl hb hr)

/-- LISTENING is entered with a fresh reception and the programmer idle (40_decoder.md R160). -/
theorem Inv.enterListening (h : Inv s) (hp : s.fp.phase = .idle ∨ s.fp.phase = .done) :
    Inv (enterListening { s with fp.phase := .idle }) :=
  have ⟨hb, hr⟩ := h.flash_idle hp
  .of_clauses
    { h with
      ranges := { h.ranges with acc := Nat.two_pow_pos _, bitIdx := Nat.zero_le _ }
      arrays := { h.arrays with }
      noHang := nofun
      waiting := nofun
      decoding := by simp }
    (.of_unmeasured (.inr rfl)) (.of_idle rfl (by simp)) (.of_unmasked rfl hb hr)

/-- In LISTENING a dispatch ends as LISTENING is entered, with the command byte cleared (41_dispatcher.md R221). -/
theorem dispatchEnd_eq (hb : s.boot.bootState = .listening) :
    dispatchEnd s = Machine.clearCommand (Machine.enterListening s) := by
  unfold dispatchEnd Machine.enterListening
  rw [← hb]
  rfl

theorem fp_idle_eq (hp : s.fp.phase = .idle) : { s with fp.phase := .idle } = s := by
  rw [← hp]

/-! ## The decoder -/

theorem Inv.decSyncFirst (h : Inv s) (hp : s.dec.phase = .syncFirst) : Inv (decSyncFirst s) := by
  have hr := h.decoding.mp (by simp [hp])
  unfold Machine.decSyncFirst
  split
  · exact { h with
      ranges := { h.ranges with tmr := Nat.two_pow_pos _, acc := Nat.two_pow_pos _ }
      arrays := { h.arrays with }
      decoding := iff_of_true nofun hr
      measuring := fun _ => by simp
      summing := fun _ => Nat.zero_le _
      estimate := nofun
      receiving := nofun }
  · exact h

theorem sampleDelay_eq (acc : Nat) : sampleDelay acc = 3 * acc / 32 := by
  simp [sampleDelay, Nat.div_div_eq_div_mul]

/-- The delay of eight intervals fits the timer (40_decoder.md R164). -/
theorem sampleDelay_lt {acc w : Nat} (h : acc ≤ 8 * (2 ^ w - 1)) : sampleDelay acc < 2 ^ w := by
  have := Nat.two_pow_pos w
  rw [sampleDelay_eq]
  omega

/-- The accumulator keeps its width (40_decoder.md R163). -/
theorem Inv.nextAcc_lt (h : Inv s) (x : Nat) : nextAcc s x < 2 ^ s.cfg.accW := by
  unfold nextAcc
  split
  · exact Nat.mod_lt _ (Nat.two_pow_pos _)
  · exact h.ranges.acc

/-- One more interval adds at most the largest timer value, and nothing before the ninth (40_decoder.md R163). -/
theorem Inv.nextAcc_le (h : Inv s) (hp : s.dec.phase = .syncMeas) :
    nextAcc s s.dec.tmr ≤ (s.dec.n.toNat + 1 - 8) * (2 ^ s.cfg.timerW - 1) := by
  have hsum := h.summing hp
  have htmr := h.ranges.tmr
  unfold nextAcc
  simp only [Config.syncAvg]
  split
  · next hn =>
    rw [Nat.sub_add_comm hn, Nat.add_mul, Nat.one_mul]
    exact (Nat.mod_le _ _).trans (by omega)
  · next hn =>
    rw [Nat.sub_eq_zero_of_le (by omega), Nat.zero_mul] at hsum
    omega

theorem Inv.decSyncMeas (h : Inv s) (hp : s.dec.phase = .syncMeas) : Inv (decSyncMeas s) := by
  have hr := h.decoding.mp (by simp [hp])
  have hn := h.measuring hp
  have hle := h.nextAcc_le hp
  have hn1 : (s.dec.n + 1#5).toNat = s.dec.n.toNat + 1 := by bv_omega
  unfold Machine.decSyncMeas
  simp only
  split_ifs with hpin hlast
  · have hn16 : s.dec.n.toNat + 1 = 16 := by rw [← hn1, hlast]; rfl
    exact { h with
      ranges := { h.ranges with
        tmr := Nat.two_pow_pos _
        acc := h.nextAcc_lt _
        delay := sampleDelay_lt (by rwa [hn16] at hle) }
      arrays := { h.arrays with }
      decoding := iff_of_true nofun hr
      measuring := nofun
      summing := nofun
      estimate := fun _ => sampleDelay_eq _
      receiving := nofun }
  · exact { h with
      ranges := { h.ranges with tmr := Nat.two_pow_pos _, acc := h.nextAcc_lt _ }
      arrays := { h.arrays with }
      decoding := by simpa [hp] using hr
      measuring := fun _ => by
        have : s.dec.n.toNat + 1 ≠ 16 := fun h16 => hlast (BitVec.eq_of_toNat_eq (hn1.trans h16))
        simp only [hn1]
        omega
      summing := fun _ => by simpa only [hn1, captureRef_cfg] using hle
      estimate := by simp [hp, afterSync]
      receiving := by simp [hp] }
  · exact h

theorem frameBits_pos (c : Config) : 0 < c.frameBits := by
  simp [Config.frameBits, Config.frameSize]

/-- Between the phases after synchronisation the estimate stands (40_decoder.md R174): a move between them has to keep
the timer and the bit index in range only. -/
theorem Inv.receive (h : Inv s) (hs : afterSync s.dec.phase = true) {p : DecPhase} (hp : afterSync p = true)
    {x i : Nat} (hx : x < 2 ^ s.cfg.timerW) (hi : i ≤ s.cfg.frameBits)
    (hdata : p = .dataEdge ∨ p = .dataSample → i < s.cfg.frameBits) (r : Bool) (k : BitVec 16) :
    Inv { s with dec.tmr := x, dec.phase := p, dec.ref := r, dec.startCnt := k, dec.bitIdx := i } :=
  { h with
    ranges := { h.ranges with tmr := hx, bitIdx := hi }
    arrays := { h.arrays with }
    decoding := iff_of_true (by rintro rfl; cases hp) (h.decoding.mp (by intro h0; rw [h0] at hs; cases hs))
    measuring := by rintro rfl; cases hp
    summing := by rintro rfl; cases hp
    estimate := fun _ => h.estimate hs
    receiving := hdata }

theorem Inv.decStartSample (h : Inv s) (hp : s.dec.phase = .startSample) : Inv (decStartSample s) := by
  have hs : afterSync s.dec.phase = true := by rw [hp]; rfl
  unfold Machine.decStartSample
  split_ifs
  · exact h.receive hs rfl h.ranges.tmr (Nat.zero_le _) (fun _ => frameBits_pos _) _ _
  · exact h.receive (p := .startEdge) hs rfl h.ranges.tmr h.ranges.bitIdx nofun _ _
  · exact h

theorem Inv.decStartEdge (h : Inv s) (hp : s.dec.phase = .startEdge) : Inv (decStartEdge s) := by
  unfold Machine.decStartEdge
  split
  · exact h.receive (p := .startSample) (by rw [hp]; rfl) rfl (Nat.two_pow_pos _) h.ranges.bitIdx nofun _ _
  · exact h

theorem Inv.decDataEdge (h : Inv s) (hp : s.dec.phase = .dataEdge) : Inv (decDataEdge s) := by
  unfold Machine.decDataEdge
  split
  · exact h.receive (by rw [hp]; rfl) rfl (Nat.two_pow_pos _) h.ranges.bitIdx (fun _ => h.receiving (.inl hp)) _ _
  · exact h

/-- A bit below FRAME_BITS lies in a byte below FRAME_SIZE (40_decoder.md R168). -/
theorem Inv.storeBit (h : Inv s) {i : Nat} (hi : i < s.cfg.frameBits) (b : Bool) : Inv (storeBit s i b) :=
  { h with
    ranges := { h.ranges with }
    arrays := { h.arrays with
      frame := Memory.ok_write (n := s.cfg.frameSize) h.arrays.frame _ (Nat.div_lt_of_lt_mul hi) } }

/-- The programmer is idle outside PROG_WAIT and RUN_WAIT. -/
theorem Inv.fp_idle (h : Inv s)
    (hn : ¬ (s.boot.bootState = .listening ∧ (s.boot.lstPhase = .progWait ∨ s.boot.lstPhase = .runWait))) :
    s.fp.phase = .idle :=
  not_not.mp (mt h.programming.mp hn)

/-- A completed frame goes to the Dispatcher, as `dec_ok` is 1 (40_decoder.md R169; 43_boot_controller.md R308). -/
theorem Inv.frameComplete (h : Inv s) (hr : Receiving s) {i : Nat} (hi : i ≤ s.cfg.frameBits) (r : Bool) :
    Inv (frameComplete { s with dec.ref := r, dec.bitIdx := i }) := by
  have hidle : s.fp.phase = .idle := h.fp_idle (by simp [hr.2])
  unfold Machine.frameComplete
  rw [if_pos h.decOk]
  exact .of_clauses
    { h with
      ranges := { h.ranges with bitIdx := hi }
      arrays := { h.arrays with }
      decOk := rfl
      decoding := by simp }
    (.of_unmeasured (.inl rfl)) (.of_idle hidle (by simp)) { h with }

theorem Inv.decDataSample (h : Inv s) (hp : s.dec.phase = .dataSample) : Inv (decDataSample s) := by
  have hi := h.receiving (.inr hp)
  have hs := h.storeBit hi (pinChanged s)
  unfold Machine.decDataSample
  simp only
  split_ifs with ht hlast
  · exact hs.frameComplete (h.decoding.mp (by simp [hp])) hi _
  · exact hs.receive (by rw [storeBit_dec, hp]; rfl) rfl hs.ranges.tmr hi (fun _ => lt_of_le_of_ne hi hlast) _ _
  · exact h

/-- Each phase of the decoder keeps the invariant (40_decoder.md R161 to R169). -/
theorem Inv.decoderStep (h : Inv s) : Inv (decoderStep s) := by
  unfold Machine.decoderStep
  split
  next => exact h
  next hp => exact h.decSyncFirst hp
  next hp => exact h.decSyncMeas hp
  next hp => exact h.decStartSample hp
  next hp => exact h.decStartEdge hp
  next hp => exact h.decDataEdge hp
  next hp => exact h.decDataSample hp

/-! ## The Flash Programmer -/

/-- A page below BOOT_START lies in FLASH (20_memory.md R82). -/
theorem Inv.page_in_flash (h : Inv s) (hp : s.fp.phase ≠ .idle) : s.fp.page + s.cfg.pageSize ≤ s.cfg.flashSize := by
  obtain ⟨-, -, -, -, -, -, hboot, -⟩ := Config.wf_iff.mp h.cfg
  exact (h.page hp).2.trans hboot

theorem pageSize_eq {c : Config} (h : c.wf = true) : c.pageSize = 2 * c.pageWords ∧ 2 < c.pageSize := by
  obtain ⟨h2, heven, -⟩ := Config.wf_iff.mp h
  exact ⟨(Nat.mul_div_cancel' (Nat.dvd_of_mod_eq_zero heven)).symm, h2⟩

/-- READ fills the merge buffer: the page, then the block at its offset (42_flash_programmer.md R263, R264). -/
theorem Inv.fpRead (h : Inv s) (hp : s.fp.phase = .read) (ht : fpRead s = .next t) : Inv t := by
  obtain ⟨hb, hr, -, rfl⟩ := fpRead_next.mp ht
  have hne : s.fp.phase ≠ .idle := by simp [hp]
  obtain ⟨-, hoff, hlen⟩ := h.slot hne (h.reading hp)
  have hm := Memory.ok_writeList h.arrays.m (a := 0) (bs := s.fc.flash.readList s.fp.page s.cfg.pageSize) (by simp)
  exact .of_clauses
    { h with
      ranges := { h.ranges with }
      arrays := { h.arrays with m := Memory.ok_writeList hm (by simp; omega) } }
    { h with } (h.sequence_runs hne nofun nofun rfl rfl rfl) (.of_unmasked rfl hb hr)

/-- ERASE masks the interrupts and begins the wait (42_flash_programmer.md R252). -/
theorem Inv.fpErase (h : Inv s) (hp : s.fp.phase = .erase) (ht : fpErase s = .next t) : Inv t := by
  obtain ⟨-, -, -, -, -, rfl⟩ := fpErase_next.mp ht
  have hne : s.fp.phase ≠ .idle := by simp [hp]
  exact .of_clauses
    { h with
      ranges := { h.ranges with }
      arrays := { h.arrays with
        flash := Memory.ok_writeList (n := s.cfg.flashSize) h.arrays.flash (by simpa using h.page_in_flash hne) } }
    { h with } (h.sequence_runs hne nofun nofun rfl rfl rfl)
    { filling := nofun
      busy := nofun
      rww := rfl
      masked := fun _ => rfl
      erased := fun _ => rfl
      filled := ⟨nofun, nofun, nofun⟩ }

/-- The programmer moves on inside the critical section and leaves the flash controller, which is idle, as it is
(42_flash_programmer.md R253, R257, R259). -/
theorem Inv.fpMove (h : Inv s) (hm : interruptsMasked s.fp.phase = true) (hb : s.fc.busyLeft = 0)
    {p : FpPhase} (hp : interruptsMasked p = true) {i : Nat} (hi : i ≤ s.cfg.pageWords)
    (hfilling : p = .fill ∨ p = .fillWait → i < s.cfg.pageWords)
    (herased : pageErased p = true → pageErased s.fp.phase = true)
    (hfilled : (p = .fill → ∀ k < i, 2 * k ∈ s.fc.filled) ∧ (p = .fillWait → ∀ k < i + 1, 2 * k ∈ s.fc.filled) ∧
      (p = .commit → ∀ k < s.cfg.pageWords, 2 * k ∈ s.fc.filled)) :
    Inv { s with fp.phase := p, fp.idx := i } := by
  have hne : s.fp.phase ≠ .idle := by intro h0; rw [h0] at hm; cases hm
  have hidle : p ≠ .idle := by rintro rfl; cases hp
  have hread : p ≠ .read := by rintro rfl; cases hp
  exact .of_clauses
    { h with
      ranges := { h.ranges with idx := hi }
      arrays := { h.arrays with } }
    { h with } (h.sequence_runs hne hidle hread rfl rfl rfl)
    { filling := hfilling
      busy := fun _ => hb
      rww := by rw [h.rww, hm]; simp [hp]
      masked := fun _ => h.masked hm
      erased := fun hq => h.erased (herased hq)
      filled := hfilled }

/-- The intercept writes `sev` and `sev_valid` only (42_flash_programmer.md R256). -/
theorem captureVector_eq (s : State) :
    captureVector s = { s with sev := (captureVector s).sev, sevValid := (captureVector s).sevValid } := by
  unfold captureVector; split <;> rfl

/-- FILL loads the next word (42_flash_programmer.md R255). -/
theorem Inv.fpFill (h : Inv s) (hp : s.fp.phase = .fill) (ht : fpFill s = .next t) : Inv t := by
  obtain ⟨-, hidx, -, rfl⟩ := fpFill_next.mp ht
  have hne : s.fp.phase ≠ .idle := by simp [hp]
  obtain ⟨hwords, -⟩ := pageSize_eq h.cfg
  obtain ⟨hfilled, -, -⟩ := h.filled
  rw [captureVector_eq]
  exact .of_clauses
    { h with
      ranges := { h.ranges with }
      arrays := { h.arrays with
        pb := Memory.ok_writeList (n := s.cfg.pageSize) h.arrays.pb (by simp [leBytes]; omega) } }
    { h with } (h.sequence_runs hne nofun nofun rfl rfl rfl)
    { filling := fun _ => h.filling (.inl hp)
      busy := nofun
      rww := h.rww.trans (by rw [hp]; rfl)
      masked := fun _ => h.masked (by rw [hp]; rfl)
      erased := fun _ => h.erased (by rw [hp]; rfl)
      filled := by
        refine ⟨nofun, fun _ k hk => ?_, nofun⟩
        rcases Nat.lt_succ_iff_lt_or_eq.mp hk with hlt | rfl
        · exact List.mem_cons_of_mem _ (hfilled hp k hlt)
        · exact List.mem_cons_self }

/-- COMMIT writes the page from the page buffer (42_flash_programmer.md R258). -/
theorem Inv.fpCommit (h : Inv s) (hp : s.fp.phase = .commit) (ht : fpCommit s = .next t) : Inv t := by
  obtain ⟨-, -, -, -, -, -, -, rfl⟩ := fpCommit_next.mp ht
  have hne : s.fp.phase ≠ .idle := by simp [hp]
  exact .of_clauses
    { h with
      ranges := { h.ranges with }
      arrays := { h.arrays with
        flash := Memory.ok_writeList (n := s.cfg.flashSize) h.arrays.flash (by simpa using h.page_in_flash hne)
        pb := Memory.ok_writeList (n := s.cfg.pageSize) h.arrays.pb (by simp) } }
    { h with } (h.sequence_runs hne nofun nofun rfl rfl rfl)
    { filling := nofun
      busy := nofun
      rww := rfl
      masked := fun _ => h.masked (by rw [hp]; rfl)
      erased := nofun
      filled := ⟨nofun, nofun, nofun⟩ }

/-- RWW enables flash reads and leaves the critical section (42_flash_programmer.md R260, R262). -/
theorem Inv.fpRww (h : Inv s) (hp : s.fp.phase = .rww) (ht : fpRww s = .next t) : Inv t := by
  obtain ⟨hb, rfl⟩ := fpRww_next.mp ht
  have hne : s.fp.phase ≠ .idle := by simp [hp]
  exact .of_clauses { h with ranges := { h.ranges with }, arrays := { h.arrays with } } { h with }
    (h.sequence_runs hne nofun nofun rfl rfl rfl) (.of_unmasked rfl hb rfl)

/-- Each phase of the programmer keeps the invariant (42_flash_programmer.md R252 to R264). -/
theorem Inv.programmerStep (h : Inv s) (ht : programmerStep s = .next t) : Inv t := by
  obtain ⟨hwords, hsize⟩ := pageSize_eq h.cfg
  obtain ⟨-, hfillWait, -⟩ := h.filled
  rcases programmerStep_next ht with ⟨-, rfl⟩ | ⟨hp, ht⟩ | ⟨hp, ht⟩ | ⟨-, -, rfl⟩ | ⟨hp, hb, rfl⟩ | ⟨hp, ht⟩ |
    ⟨hp, hb, hlast, rfl⟩ | ⟨hp, hb, hmore, rfl⟩ | ⟨hp, ht⟩ | ⟨hp, hb, rfl⟩ | ⟨hp, ht⟩
  · exact h
  · exact h.fpRead hp ht
  · exact h.fpErase hp ht
  · exact h
  · exact h.fpMove (p := .fill) (by rw [hp]; rfl) hb rfl (Nat.zero_le _) (fun _ => by omega) (fun _ => by rw [hp]; rfl)
      ⟨nofun, nofun, nofun⟩
  · exact h.fpFill hp ht
  · exact h.fpMove (p := .commit) (by rw [hp]; rfl) hb rfl h.ranges.idx nofun (fun _ => by rw [hp]; rfl)
      ⟨nofun, nofun, fun _ => hlast ▸ hfillWait hp⟩
  · have hidx := h.filling (.inr hp)
    exact h.fpMove (p := .fill) (by rw [hp]; rfl) hb rfl hidx (fun _ => lt_of_le_of_ne hidx hmore)
      (fun _ => by rw [hp]; rfl) ⟨fun _ => hfillWait hp, nofun, nofun⟩
  · exact h.fpCommit hp ht
  · exact h.fpMove (p := .rww) (by rw [hp]; rfl) hb rfl h.ranges.idx nofun nofun ⟨nofun, nofun, nofun⟩
  · exact h.fpRww hp ht

/-! ## The commands and the completion phases -/

/-- A dispatch ends with the programmer idle, which it was or is set to after DONE. -/
theorem Inv.dispatchEnd (h : Inv s) (hb : s.boot.bootState = .listening)
    (hp : s.fp.phase = .idle ∨ s.fp.phase = .done) : Inv (dispatchEnd { s with fp.phase := .idle }) := by
  rw [dispatchEnd_eq (s := { s with fp.phase := .idle }) hb]
  exact (h.enterListening hp).clearCommand

/-- Two multiples of the page size: a page that begins below BOOT_START ends there at the latest (20_memory.md R82). -/
theorem pageAddr_add_le {c : Config} (hw : c.wf = true) {x : Word} (hx : pageAddr c x < c.bootStart) :
    pageAddr c x + c.pageSize ≤ c.bootStart := by
  obtain ⟨hsize, -, -, -, hboot, -⟩ := Config.wf_iff.mp hw
  obtain ⟨k, hk⟩ := Nat.dvd_of_mod_eq_zero hboot
  unfold pageAddr at hx ⊢
  rw [hk] at hx ⊢
  exact Nat.mul_le_mul_left c.pageSize (Nat.lt_of_mul_lt_mul_left hx)

/-- While a frame is dispatched neither the decoder nor the programmer runs. -/
theorem Inv.dispatch_idle (h : Inv s) (hl : s.boot.lstPhase = .dispatch) : s.dec.phase = .idle ∧ s.fp.phase = .idle :=
  ⟨not_not.mp (mt h.decoding.mp (by simp [hl])), h.fp_idle (by simp [hl])⟩

/-- PROGRAM starts a full page program (41_dispatcher.md R213). -/
theorem Inv.startProgram (h : Inv s) (hb : s.boot.bootState = .listening) (hl : s.boot.lstPhase = .dispatch)
    {x : Word} (hx : pageAddr s.cfg x < s.cfg.bootStart) :
    Inv { fpStartFull (pageAddr s.cfg x) s with boot.lstPhase := .progWait } := by
  obtain ⟨hdec, hidle⟩ := h.dispatch_idle hl
  obtain ⟨-, -, -, -, -, -, hboot, -⟩ := Config.wf_iff.mp h.cfg
  obtain ⟨hbusy, hrww⟩ := h.flash_idle (.inl hidle)
  exact .of_clauses
    { h with
      ranges := { h.ranges with page := hx.trans_le hboot }
      arrays := { h.arrays with }
      decoding := iff_of_false (not_not.mpr hdec) (by simp) }
    { h with }
    { programming := iff_of_true nofun ⟨hb, .inl rfl⟩
      kind := fun _ => ⟨fun _ => rfl, nofun⟩
      reading := nofun
      page := fun _ => ⟨Nat.mul_mod_right _ _, pageAddr_add_le h.cfg hx⟩
      slot := nofun }
    (.of_unmasked rfl hbusy hrww)

/-- RUN starts the vector restore on the slot's page (41_dispatcher.md R214; 42_flash_programmer.md R265). -/
theorem Inv.startRestore (h : Inv s) (hb : s.boot.bootState = .listening) (hl : s.boot.lstPhase = .dispatch) :
    Inv { blockResult s.cfg.funcAddr (leBytes s.sev) s with boot.lstPhase := .runWait } := by
  obtain ⟨hdec, hidle⟩ := h.dispatch_idle hl
  obtain ⟨hsize, -, -, -, -, hpos, hboot, -⟩ := Config.wf_iff.mp h.cfg
  obtain ⟨hbusy, hrww⟩ := h.flash_idle (.inl hidle)
  have hoff := Config.funcAddr_mod h.cfg
  have hpage : s.cfg.funcAddr - s.cfg.funcAddr % s.cfg.pageSize + s.cfg.pageSize = s.cfg.bootStart := by
    rw [hoff]; simp only [Config.funcAddr, Config.ptrBytes]; omega
  have hmod : (s.cfg.funcAddr - s.cfg.funcAddr % s.cfg.pageSize) % s.cfg.pageSize = 0 :=
    Nat.mod_eq_zero_of_dvd (Nat.dvd_sub_mod _)
  exact .of_clauses
    { h with
      ranges := { h.ranges with
        page := by simp only [blockResult]; omega
        blkOff := Nat.mod_lt _ (by omega)
        blkLen := hsize }
      arrays := { h.arrays with
        blk := Memory.ok_writeList (n := s.cfg.pageSize - 1) h.arrays.blk (by simp [leBytes]; omega) }
      decoding := iff_of_false (not_not.mpr hdec) (by simp) }
    { h with }
    { programming := iff_of_true nofun ⟨hb, .inr rfl⟩
      kind := fun _ => ⟨nofun, fun _ => rfl⟩
      reading := fun _ => rfl
      page := fun _ => ⟨hmod, hpage.le⟩
      slot := fun _ _ => ⟨hpage, by simp only [blockResult]; omega, rfl⟩ }
    (.of_unmasked rfl hbusy hrww)

/-- EEPROM_WRITE (41_dispatcher.md R215). -/
theorem Inv.execEepromWrite (h : Inv s) (hl : s.boot.lstPhase = .dispatch)
    {f : Frame} (ht : execEepromWrite f s = .next t) : Inv t := by
  cases ht
  obtain ⟨hdec, hidle⟩ := h.dispatch_idle hl
  obtain ⟨hsize, -⟩ := Config.wf_iff.mp h.cfg
  exact .of_clauses
    { h with
      ranges := { h.ranges with eeBase := Nat.mul_lt_mul_of_pos_left f.page.isLt (by omega) }
      arrays := { h.arrays with }
      decoding := iff_of_false (not_not.mpr hdec) (by simp) }
    { h with } (.of_idle hidle (by simp)) { h with }

/-- Every command keeps the invariant (41_dispatcher.md R211 to R217). -/
theorem Inv.exec (h : Inv s) (hb : s.boot.bootState = .listening) (hl : s.boot.lstPhase = .dispatch) {i : Instr}
    (ht : exec i s = .next t) : Inv t := by
  rcases exec_next ht with rfl | ⟨f, hx, rfl⟩ | rfl | ⟨f, ht⟩
  · obtain ⟨-, hidle⟩ := h.dispatch_idle hl
    simpa only [fp_idle_eq hidle] using h.dispatchEnd hb (.inl hidle)
  · exact h.startProgram hb hl hx
  · exact h.startRestore hb hl
  · exact h.execEepromWrite hl ht

theorem Inv.progWaitStep (h : Inv s) (hb : s.boot.bootState = .listening) (ht : progWaitStep s = .next t) : Inv t := by
  rcases progWaitStep_next ht with ⟨hd, rfl⟩ | ht
  · exact h.toggleLed.dispatchEnd hb (.inr hd)
  · exact h.programmerStep ht

theorem Inv.runWaitStep (h : Inv s) (ht : runWaitStep s = .next t) : Inv t := by
  rcases runWaitStep_next ht with ⟨hd, rfl⟩ | ht
  · obtain ⟨hbusy, hrww⟩ := h.flash_idle (.inr hd)
    exact (h.handoffResult .run hbusy hrww).clearCommand
  · exact h.programmerStep ht

theorem Inv.eeWriteStep (h : Inv s) (ht : eeWriteStep s = .next t) : Inv t := by
  unfold Machine.eeWriteStep at ht
  split at ht
  · cases ht
    exact { h with ranges := { h.ranges with }, arrays := { h.arrays with } }
  · obtain ⟨hbusy, hrww, -, rfl⟩ := handoff_next.mp ht
    exact (h.handoffResult .eeprom hbusy hrww).clearCommand

/-- LISTENING (43_boot_controller.md R305). -/
theorem Inv.listeningStep (h : Inv s) (hb : s.boot.bootState = .listening) (ht : listeningStep s = .next t) :
    Inv t := by
  unfold Machine.listeningStep at ht
  split at ht
  next => cases ht; exact h.decoderStep
  next hl =>
    split at ht
    next => exact h.exec hb hl ht
    next => cases ht
  next => exact h.progWaitStep hb ht
  next => exact h.runWaitStep ht
  next => exact h.eeWriteStep ht

/-! ## The Boot Controller -/

/-- A blink cycle wraps at BLINK_TICKS (43_boot_controller.md R301). -/
theorem Inv.waitSchedule_blinkCnt (h : Inv s) (hb : s.boot.bootState = .waitSignal) :
    (waitSchedule s).boot.blinkCnt < s.cfg.blinkTicks := by
  obtain ⟨-, hblink, -⟩ := h.waiting hb
  rw [waitSchedule_boot_blinkCnt]
  split
  · omega
  · next hn =>
    have : s.boot.blinkCnt + 1 ≠ s.cfg.blinkTicks := by simpa [blinkTick] using hn
    omega

theorem Inv.waitSchedule_ranges (h : Inv s) (hb : s.boot.bootState = .waitSignal) : Ranges (waitSchedule s) :=
  { h.ranges with
    timeoutLeft := by
      have := h.ranges.timeoutLeft
      rw [waitSchedule_boot_timeoutLeft, waitSchedule_cfg]
      split <;> omega
    blinkCnt := lt_max_of_lt_left (h.waitSchedule_blinkCnt hb) }

/-- The blink schedule, in a step that is not the timeout: a cycle is left (43_boot_controller.md R301). -/
theorem Inv.waitSchedule (h : Inv s) (hb : s.boot.bootState = .waitSignal)
    (hx : ¬ (blinkTick s = true ∧ s.boot.timeoutLeft = 1)) : Inv (waitSchedule s) := by
  obtain ⟨hleft, -, hedges⟩ := h.waiting hb
  have hleft' : 1 ≤ (Machine.waitSchedule s).boot.timeoutLeft := by
    rw [waitSchedule_boot_timeoutLeft]
    split
    · next ht =>
      have hne : s.boot.timeoutLeft ≠ 1 := fun h1 => hx ⟨ht, h1⟩
      omega
    · exact hleft
  exact { h with
    ranges := h.waitSchedule_ranges hb
    arrays := { h.arrays with }
    waiting := fun _ => ⟨hleft', h.waitSchedule_blinkCnt hb, hedges⟩ }

/-- An edge that is not the last one leaves one to wait for (43_boot_controller.md R301). -/
theorem sub_one_ne_zero : ∀ x : BitVec 2, x ≠ 1#2 → x - 1#2 ≠ 0#2 := by decide

theorem Inv.waitSignalStep (h : Inv s) (hb : s.boot.bootState = .waitSignal) (ht : waitSignalStep s = .next t) :
    Inv t := by
  have hidle : s.fp.phase = .idle := h.fp_idle (by simp [hb])
  rcases waitSignalStep_next ht with ht | ⟨hx, rfl | ⟨h1, rfl⟩ | rfl⟩
  · obtain ⟨hbusy, hrww, -, rfl⟩ := handoff_next.mp ht
    have hh := h.handoffResult .timeout hbusy hrww
    exact { hh with
      ranges := { h.waitSchedule_ranges hb with }
      arrays := { hh.arrays with }
      waiting := nofun }
  · have hw := (h.waitSchedule hb hx).enterListening (.inl hidle)
    rwa [fp_idle_eq (by exact hidle)] at hw
  · have hw := h.waitSchedule hb hx
    exact { hw with
      ranges := { hw.ranges with }
      arrays := { hw.arrays with }
      waiting := fun _ =>
        have ⟨hleft, hblink, _⟩ := hw.waiting hb
        ⟨hleft, hblink, sub_one_ne_zero _ h1⟩ }
  · exact h.waitSchedule hb hx

/-! ## Reset -/

/-- FLASH keeps its form through a reset: only the page of an interrupted sequence is drawn (20_memory.md R92). -/
theorem flashAfterReset_ok (hf : MemoryOk s.cfg.flashSize s.fc.flash)
    (hp : s.fp.phase ≠ .idle → s.fp.page + s.cfg.pageSize ≤ s.cfg.flashSize) (k : Nat) :
    MemoryOk s.cfg.flashSize (flashAfterReset s k) := by
  unfold flashAfterReset
  split
  · exact hf
  · next hn => exact Memory.ok_writeList hf (by simpa using hp (fun h0 => hn (.inl h0)))

/-- The reset values meet the invariant (70_reset_and_hazards.md R380). -/
theorem inv_resetRegisters (hc : s.cfg.wf = true) (hf : MemoryOk s.cfg.flashSize s.fc.flash)
    (hp : s.fp.phase ≠ .idle → s.fp.page + s.cfg.pageSize ≤ s.cfg.flashSize) : Inv (resetRegisters s) := by
  obtain ⟨hsize, -, hflash, -, -, -, -, hto, hblink, -⟩ := Config.wf_iff.mp hc
  have hpos : 0 < s.cfg.pageSize := by omega
  exact .of_clauses
    { cfg := hc
      ranges := {
        tmr := Nat.mod_lt _ (Nat.two_pow_pos _)
        acc := Nat.mod_lt _ (Nat.two_pow_pos _)
        delay := Nat.mod_lt _ (Nat.two_pow_pos _)
        bitIdx := Nat.le_of_lt_succ (Nat.mod_lt _ (Nat.succ_pos _))
        eeBase := Nat.mod_lt _ (Nat.mul_pos hpos (Nat.two_pow_pos _))
        page := Nat.mod_lt _ hflash
        idx := Nat.le_of_lt_succ (Nat.mod_lt _ (Nat.succ_pos _))
        blkOff := Nat.mod_lt _ hpos
        blkLen := Nat.mod_lt _ hpos
        timeoutLeft := le_rfl
        blinkCnt := lt_max_of_lt_left hblink }
      arrays := {
        flash := flashAfterReset_ok hf hp _
        pb := drawn_ok _ s.cfg.pageSize
        frame := drawn_ok _ s.cfg.frameSize
        m := drawn_ok _ s.cfg.pageSize
        blk := drawn_ok _ (s.cfg.pageSize - 1) }
      decOk := rfl
      noHang := nofun
      waiting := fun _ => ⟨hto, hblink, (by decide : BitVec.ofNat 2 Config.waitEdges ≠ 0#2)⟩
      decoding := by simp [resetRegisters] }
    (.of_unmeasured (.inl rfl)) (.of_idle rfl nofun) (.of_unmasked rfl rfl rfl)

/-! ## The step -/

/-- Every rule of the current state keeps the invariant; ERROR_HANG is not a current state. -/
theorem Inv.controllerStep (h : Inv s) (ht : controllerStep s = .next t) : Inv t := by
  unfold Machine.controllerStep at ht
  split at ht
  next hb => exact h.waitSignalStep hb ht
  next hb => exact h.listeningStep hb ht
  next hb => exact absurd hb h.noHang
  next => cases ht; exact h

/-- A reset needs of the state before only its configuration, FLASH and the page of the sequence. -/
theorem Inv.resetStep (h : Inv s) (ht : resetStep (Machine.tick s) = .next t) : Inv t := by
  have hr : Inv (resetRegisters (Machine.tick s)) := inv_resetRegisters h.cfg h.arrays.flash h.page_in_flash
  unfold Machine.resetStep at ht
  split at ht
  · obtain ⟨hbusy, hrww, -, rfl⟩ := handoff_next.mp ht
    exact hr.handoffResult .skip hbusy hrww
  · cases ht; exact hr

/-- Settles O55: sampling and the front of a step keep the invariant where there is no reset, and each rule keeps it
from there; a reset step meets it anew. -/
theorem stepKeepsInv : Obligations.StepKeepsInv := by
  intro s t h ht
  obtain ⟨hok, ⟨-, ht⟩ | ⟨hrst, ht⟩⟩ := step_next.mp ht
  · exact h.sampleInputs.resetStep ht
  · exact (h.sampleInputs.tick (no_cpu_write_in_span hok hrst)).controllerStep ht

end Sys2Proof.Machine
end

section
/-! Who writes the timer, the frame buffer and the saved vector: the decoder and the programmer as the spec says, and
every other rule at most the command byte. -/

namespace Sys2Proof.Machine

variable {s t : State}

/-- A byte that reads otherwise after a write is the byte written. -/
theorem Memory.eq_of_read_write_ne {m : Memory} {a b : Nat} {v : Byte} (h : (m.write a v).read b ≠ m.read b) :
    b = a :=
  not_not.mp fun hn => h (Memory.read_write_other m v (Ne.symm hn))

/-! ## The decoder -/

theorem frameComplete_writes (s : State) :
    (frameComplete s).dec.tmr = s.dec.tmr ∧ (frameComplete s).frame = s.frame ∧ (frameComplete s).sev = s.sev := by
  unfold frameComplete
  simp only
  split <;> exact ⟨rfl, rfl, rfl⟩

/-- The decoder zeroes the timer at an edge in an edge-waiting phase, stores in DATA_SAMPLE at the byte of the bit
index, and leaves `sev` alone (40_decoder.md R162 to R168). -/
theorem decoderStep_writes (s : State) :
    ((decoderStep s).dec.tmr = s.dec.tmr ∨
      ((decoderStep s).dec.tmr = 0 ∧ edgeWaiting s.dec.phase = true ∧ pinChanged s = true)) ∧
    ((decoderStep s).frame = s.frame ∨
      (s.dec.phase = .dataSample ∧ ∃ v, (decoderStep s).frame = s.frame.write (s.dec.bitIdx / 8) v)) ∧
    (decoderStep s).sev = s.sev := by
  unfold decoderStep
  split
  next => exact ⟨.inl rfl, .inl rfl, rfl⟩
  next hp =>
    unfold decSyncFirst
    split_ifs with hedge
    · exact ⟨.inr ⟨rfl, by rw [hp]; rfl, hedge⟩, .inl rfl, rfl⟩
    · exact ⟨.inl rfl, .inl rfl, rfl⟩
  next hp =>
    unfold decSyncMeas
    simp only
    split_ifs with hedge
    · exact ⟨.inr ⟨rfl, by rw [hp]; rfl, hedge⟩, .inl rfl, rfl⟩
    · exact ⟨.inr ⟨rfl, by rw [hp]; rfl, hedge⟩, .inl rfl, rfl⟩
    · exact ⟨.inl rfl, .inl rfl, rfl⟩
  next =>
    unfold decStartSample
    split_ifs <;> exact ⟨.inl rfl, .inl rfl, rfl⟩
  next hp =>
    unfold decStartEdge
    split_ifs with hedge
    · exact ⟨.inr ⟨rfl, by rw [hp]; rfl, hedge⟩, .inl rfl, rfl⟩
    · exact ⟨.inl rfl, .inl rfl, rfl⟩
  next hp =>
    unfold decDataEdge
    split_ifs with hedge
    · exact ⟨.inr ⟨rfl, by rw [hp]; rfl, hedge⟩, .inl rfl, rfl⟩
    · exact ⟨.inl rfl, .inl rfl, rfl⟩
  next hp =>
    unfold decDataSample
    simp only
    split_ifs
    · obtain ⟨htmr, hframe, hsev⟩ := frameComplete_writes
        { captureRef (storeBit s s.dec.bitIdx (pinChanged s)) with dec.bitIdx := s.dec.bitIdx + 1 }
      exact ⟨.inl htmr, .inr ⟨hp, _, hframe⟩, hsev⟩
    · exact ⟨.inl rfl, .inr ⟨hp, _, rfl⟩, rfl⟩
    · exact ⟨.inl rfl, .inl rfl, rfl⟩

/-! ## The Flash Programmer -/

/-- The programmer leaves the decoder and the frame buffer alone, and writes `sev` in the one intercept case
(42_flash_programmer.md R256). -/
theorem programmerStep_writes (h : programmerStep s = .next t) :
    t.dec = s.dec ∧ t.frame = s.frame ∧
    (t.sev = s.sev ∨ (s.fp.phase = .fill ∧ interceptApplies s = true ∧ t.sevValid = true)) := by
  have hcases := programmerStep_next h
  simp only [fpRead_next, fpErase_next, fpCommit_next, fpRww_next] at hcases
  rcases hcases with ⟨-, rfl⟩ | ⟨-, -, -, -, rfl⟩ | ⟨-, -, -, -, -, -, rfl⟩ | ⟨-, -, rfl⟩ | ⟨-, -, rfl⟩ | ⟨hp, ht⟩ |
    ⟨-, -, -, rfl⟩ | ⟨-, -, -, rfl⟩ | ⟨-, -, -, -, -, -, -, -, rfl⟩ | ⟨-, -, rfl⟩ | ⟨-, -, rfl⟩
  case inr.inr.inr.inr.inr.inl =>
    obtain ⟨-, -, -, rfl⟩ := fpFill_next.mp ht
    unfold captureVector
    split_ifs with hi
    · exact ⟨rfl, rfl, .inr ⟨hp, hi, rfl⟩⟩
    · exact ⟨rfl, rfl, .inl rfl⟩
  all_goals exact ⟨rfl, rfl, .inl rfl⟩

/-! ## The other rules -/

/-- The timer and `sev` stand, and of the frame buffer at most the command byte is cleared. -/
structure DataStands (s t : State) : Prop where
  tmr : t.dec.tmr = s.dec.tmr
  frame : t.frame = s.frame ∨ t.frame = s.frame.write 0 0#8
  sev : t.sev = s.sev

theorem DataStands.waitSignalStep (h : waitSignalStep s = .next t) : DataStands s t := by
  rcases waitSignalStep_next h with ht | ⟨-, rfl | ⟨-, rfl⟩ | rfl⟩
  · obtain ⟨-, -, -, rfl⟩ := handoff_next.mp ht
    exact ⟨rfl, .inl rfl, rfl⟩
  all_goals exact ⟨rfl, .inl rfl, rfl⟩

theorem DataStands.errorHangStep (s : State) : DataStands s (errorHangStep s) := by
  unfold Machine.errorHangStep
  split <;> exact ⟨rfl, .inl rfl, rfl⟩

theorem DataStands.exec {i : Instr} (h : exec i s = .next t) : DataStands s t := by
  rcases exec_next h with rfl | ⟨f, -, rfl⟩ | rfl | ⟨f, ht⟩
  · exact ⟨rfl, .inr rfl, rfl⟩
  · exact ⟨rfl, .inl rfl, rfl⟩
  · exact ⟨rfl, .inl rfl, rfl⟩
  · cases ht
    exact ⟨rfl, .inl rfl, rfl⟩

theorem DataStands.eeWriteStep (h : eeWriteStep s = .next t) : DataStands s t := by
  unfold Machine.eeWriteStep at h
  split at h
  · cases h
    exact ⟨rfl, .inl rfl, rfl⟩
  · obtain ⟨-, -, -, rfl⟩ := handoff_next.mp h
    exact ⟨rfl, .inr rfl, rfl⟩

/-- A rule is the decoder's, the programmer's, or one that leaves the timer and `sev` alone and the frame buffer up to
the command byte (43_boot_controller.md R305; 60_exceptions.md R346). -/
theorem controllerStep_next (h : controllerStep s = .next t) :
    (Receiving s ∧ t = decoderStep s) ∨ programmerStep s = .next t ∨ DataStands s t := by
  unfold controllerStep at h
  split at h
  next => exact .inr (.inr (.waitSignalStep h))
  next hb =>
    unfold listeningStep at h
    split at h
    next hl => exact .inl ⟨⟨hb, hl⟩, (Host.Outcome.next.inj h).symm⟩
    next =>
      split at h
      next => exact .inr (.inr (.exec h))
      next => cases h
    next =>
      rcases progWaitStep_next h with ⟨-, rfl⟩ | ht
      · exact .inr (.inr ⟨rfl, .inr rfl, rfl⟩)
      · exact .inr (.inl ht)
    next =>
      rcases runWaitStep_next h with ⟨-, rfl⟩ | ht
      · exact .inr (.inr ⟨rfl, .inr rfl, rfl⟩)
      · exact .inr (.inl ht)
    next => exact .inr (.inr (.eeWriteStep h))
  next => cases h; exact .inr (.inr (.errorHangStep s))
  next => cases h; exact .inr (.inr ⟨rfl, .inl rfl, rfl⟩)

/-- The same of an ordinary step, from the state its rules act on. -/
theorem ordinary_step_next (h : Ordinary s) (ht : step s = .next t) :
    (Receiving s ∧ t = decoderStep (begun s)) ∨ programmerStep (begun s) = .next t ∨ DataStands (begun s) t := by
  have hc := controllerStep_next ((step_of_ordinary h).symm.trans ht)
  rwa [Receiving, begun_boot] at hc

/-! ## The obligations -/

/-- Settles O13: the front of the step increments the timer, and only the decoder writes it. -/
theorem timerFreeRuns : Obligations.TimerFreeRuns := by
  intro s t ho ht
  have hfront : (begun s).dec.tmr = nextTmr s := by rw [begun_dec]
  rcases ordinary_step_next ho ht with ⟨hr, rfl⟩ | hp | hk
  · obtain ⟨htmr | ⟨hzero, hwait, hedge⟩, -, -⟩ := decoderStep_writes (begun s)
    · exact .inl (htmr.trans hfront)
    · rw [begun_dec] at hwait
      rw [pinChanged_begun] at hedge
      exact .inr ⟨hzero, hr, hwait, bne_iff_ne.mp hedge⟩
  · obtain ⟨hdec, -, -⟩ := programmerStep_writes hp
    exact .inl (by rw [hdec, hfront])
  · exact .inl (hk.tmr.trans hfront)

/-- Settles O18: a byte that changed is one that was written, by the bit store or by the clearing of the command. -/
theorem frameBufferWriters : Obligations.FrameBufferWriters := by
  intro s t a ho ht hne
  rw [← begun_frame s] at hne
  rcases ordinary_step_next ho ht with ⟨hr, rfl⟩ | hp | hk
  · obtain ⟨-, hsame | ⟨hphase, v, hwrite⟩, -⟩ := decoderStep_writes (begun s)
    · exact absurd (by rw [hsame]) hne
    · rw [hwrite] at hne
      have ha := Memory.eq_of_read_write_ne hne
      rw [begun_dec] at hphase ha
      exact .inl ⟨hr, hphase, ha⟩
  · obtain ⟨-, hsame, -⟩ := programmerStep_writes hp
    exact absurd (by rw [hsame]) hne
  · rcases hk.frame with hsame | hclear
    · exact absurd (by rw [hsame]) hne
    · rw [hclear] at hne ⊢
      exact .inr ⟨Memory.eq_of_read_write_ne hne, Memory.read_write_same ..⟩

/-- Settles O19: only the programmer's FILL writes `sev`, in the case of the intercept. -/
theorem savedVectorWriters : Obligations.SavedVectorWriters := by
  intro s t ho ht hne
  rw [← begun_sev s] at hne
  rcases ordinary_step_next ho ht with ⟨-, rfl⟩ | hp | hk
  · obtain ⟨-, -, hsame⟩ := decoderStep_writes (begun s)
    exact absurd hsame hne
  · obtain ⟨-, -, hsame | ⟨hphase, hi, hvalid⟩⟩ := programmerStep_writes hp
    · exact absurd hsame hne
    · simp only [interceptApplies, begun_fp, Bool.and_eq_true, beq_iff_eq] at hphase hi
      obtain ⟨⟨hkind, hpage⟩, hidx⟩ := hi
      exact ⟨hphase, hkind, hpage, hidx, hvalid⟩
  · exact absurd hk.sev hne

/-- Settles O12: sampling changes the environment's part only, and `tick` the fields listed. -/
theorem frontOfStep : Obligations.FrontOfStep := by
  intro s
  unfold nextInput begun
  rw [sampleInputs_eq]
  rfl

end Sys2Proof.Machine
end

section
/-! The output ports and the codes of the enumerated registers (10_state.md R33, R35): each code function is
injective, and no port shows a reserved code. -/

namespace Sys2Proof.Machine

theorem bootStateCode_eq_iff (x y : BootState) : bootStateCode x = bootStateCode y ↔ x = y := by
  cases x <;> cases y <;> decide

theorem lstPhaseCode_eq_iff (x y : LstPhase) : lstPhaseCode x = lstPhaseCode y ↔ x = y := by
  cases x <;> cases y <;> decide

theorem decPhaseCode_eq_iff (x y : DecPhase) : decPhaseCode x = decPhaseCode y ↔ x = y := by
  cases x <;> cases y <;> decide

theorem fpPhaseCode_eq_iff (x y : FpPhase) : fpPhaseCode x = fpPhaseCode y ↔ x = y := by
  cases x <;> cases y <;> decide

theorem fpKindCode_eq_iff (x y : FpKind) : fpKindCode x = fpKindCode y ↔ x = y := by
  cases x <;> cases y <;> decide

theorem appCauseCode_eq_iff (x y : AppCause) : appCauseCode x = appCauseCode y ↔ x = y := by
  cases x <;> cases y <;> decide

theorem lstPhaseCode_lt (x : LstPhase) : (lstPhaseCode x).toNat < 5 := by cases x <;> decide
theorem decPhaseCode_lt (x : DecPhase) : (decPhaseCode x).toNat < 7 := by cases x <;> decide
theorem fpPhaseCode_lt (x : FpPhase) : (fpPhaseCode x).toNat < 10 := by cases x <;> decide
theorem appCauseCode_lt (x : AppCause) : (appCauseCode x).toNat < 5 := by cases x <;> decide

/-- Settles O16: a port that shows a register is that register, and a code names one value, as codes are injective. -/
theorem portsShowState : Obligations.PortsShowState := fun _ =>
  ⟨beq_iff_eq, beq_iff_eq, rfl, rfl, rfl, rfl, fun _ => ⟨rfl, rfl⟩,
    bootStateCode_eq_iff _ .waitSignal, bootStateCode_eq_iff _ .listening, bootStateCode_eq_iff _ .errorHang,
    bootStateCode_eq_iff _ .runApplication,
    lstPhaseCode_eq_iff _ .rx, lstPhaseCode_eq_iff _ .dispatch, lstPhaseCode_eq_iff _ .progWait,
    lstPhaseCode_eq_iff _ .runWait, lstPhaseCode_eq_iff _ .eeWrite,
    decPhaseCode_eq_iff _ .idle, decPhaseCode_eq_iff _ .syncFirst, decPhaseCode_eq_iff _ .syncMeas,
    decPhaseCode_eq_iff _ .startSample, decPhaseCode_eq_iff _ .startEdge, decPhaseCode_eq_iff _ .dataEdge,
    decPhaseCode_eq_iff _ .dataSample,
    fpPhaseCode_eq_iff _ .idle, fpPhaseCode_eq_iff _ .read, fpPhaseCode_eq_iff _ .erase,
    fpPhaseCode_eq_iff _ .eraseWait, fpPhaseCode_eq_iff _ .fill, fpPhaseCode_eq_iff _ .fillWait,
    fpPhaseCode_eq_iff _ .commit, fpPhaseCode_eq_iff _ .commitWait, fpPhaseCode_eq_iff _ .rww,
    fpPhaseCode_eq_iff _ .done,
    appCauseCode_eq_iff _ .none, appCauseCode_eq_iff _ .skip, appCauseCode_eq_iff _ .timeout,
    appCauseCode_eq_iff _ .run, appCauseCode_eq_iff _ .eeprom,
    fpKindCode_eq_iff _ .fullPage, fpKindCode_eq_iff _ .block,
    lstPhaseCode_lt _, decPhaseCode_lt _, fpPhaseCode_lt _, appCauseCode_lt _⟩

end Sys2Proof.Machine
end

section
/-! Who writes FLASH: an erase or a commit of the programmer, a reset that interrupts a sequence, and nothing else; and
each of them in the page of the sequence only (20_memory.md R80, R92). -/

namespace Sys2Proof.Machine

variable {s t : State}

/-! ## One page -/

theorem SameOutsidePage.of_flash_eq {p : Nat} (h : t.fc.flash = s.fc.flash) : SameOutsidePage p s t :=
  fun _ _ => by rw [h]

theorem SameOutsidePage.of_writeList {p : Nat} {bs : List Byte} (h : t.fc.flash = s.fc.flash.writeList p bs)
    (hlen : bs.length = s.cfg.pageSize) : SameOutsidePage p s t :=
  fun _ ha => by rw [h]; exact Memory.read_writeList_outside _ _ (by rwa [hlen])

/-! ## The rules that leave the flash controller alone -/

@[simp] theorem decSyncFirst_fc (s : State) : (decSyncFirst s).fc = s.fc := by
  unfold decSyncFirst; split <;> rfl

@[simp] theorem decSyncMeas_fc (s : State) : (decSyncMeas s).fc = s.fc := by
  unfold decSyncMeas; simp only; split_ifs <;> rfl

@[simp] theorem decStartSample_fc (s : State) : (decStartSample s).fc = s.fc := by
  unfold decStartSample; split_ifs <;> rfl

@[simp] theorem decStartEdge_fc (s : State) : (decStartEdge s).fc = s.fc := by
  unfold decStartEdge; split <;> rfl

@[simp] theorem decDataEdge_fc (s : State) : (decDataEdge s).fc = s.fc := by
  unfold decDataEdge; split <;> rfl

@[simp] theorem frameComplete_fc (s : State) : (frameComplete s).fc = s.fc := by
  unfold frameComplete; simp only; split <;> rfl

@[simp] theorem decDataSample_fc (s : State) : (decDataSample s).fc = s.fc := by
  unfold decDataSample; simp only; split_ifs <;> simp

@[simp] theorem decoderStep_fc (s : State) : (decoderStep s).fc = s.fc := by
  unfold decoderStep; split <;> simp

@[simp] theorem errorHangStep_fc (s : State) : (errorHangStep s).fc = s.fc := by
  unfold errorHangStep; split <;> rfl

theorem waitSignalStep_fc (h : waitSignalStep s = .next t) : t.fc = s.fc := by
  rcases waitSignalStep_next h with ht | ⟨-, rfl | ⟨-, rfl⟩ | rfl⟩
  · obtain ⟨-, -, -, rfl⟩ := handoff_next.mp ht
    rfl
  all_goals rfl

/-- A command starts a sequence, and issues no flash operation itself. -/
theorem exec_fc {i : Instr} (h : exec i s = .next t) : t.fc = s.fc := by
  rcases exec_next h with rfl | ⟨f, -, rfl⟩ | rfl | ⟨f, ht⟩
  · rfl
  · rfl
  · rfl
  · cases ht
    rfl

theorem eeWriteStep_fc (h : eeWriteStep s = .next t) : t.fc = s.fc := by
  unfold eeWriteStep at h
  split at h
  · cases h
    rfl
  · obtain ⟨-, -, -, rfl⟩ := handoff_next.mp h
    rfl

/-- Only the programmer issues flash operations: every other rule leaves the flash controller as it is. -/
theorem controllerStep_programmer_or_fc (h : controllerStep s = .next t) :
    programmerStep s = .next t ∨ t.fc = s.fc := by
  unfold controllerStep at h
  split at h
  next => exact .inr (waitSignalStep_fc h)
  next =>
    unfold listeningStep at h
    split at h
    next => cases h; exact .inr (decoderStep_fc s)
    next =>
      split at h
      next => exact .inr (exec_fc h)
      next => cases h
    next =>
      rcases progWaitStep_next h with ⟨-, rfl⟩ | ht
      · exact .inr rfl
      · exact .inl ht
    next =>
      rcases runWaitStep_next h with ⟨-, rfl⟩ | ht
      · exact .inr rfl
      · exact .inl ht
    next => exact .inr (eeWriteStep_fc h)
  next => cases h; exact .inr (errorHangStep_fc s)
  next => cases h; exact .inr rfl

/-! ## The rules that write FLASH -/

/-- Of the programmer's phases ERASE and COMMIT write FLASH, one page each (42_flash_programmer.md R252, R258). -/
theorem programmerStep_flash (h : programmerStep s = .next t) :
    t.fc.flash = s.fc.flash ∨
    ((s.fp.phase = .erase ∨ s.fp.phase = .commit) ∧ SameOutsidePage s.fp.page s t) := by
  rcases programmerStep_next h with ⟨-, rfl⟩ | ⟨-, ht⟩ | ⟨hp, ht⟩ | ⟨-, -, rfl⟩ | ⟨-, -, rfl⟩ | ⟨-, ht⟩ |
    ⟨-, -, -, rfl⟩ | ⟨-, -, -, rfl⟩ | ⟨hp, ht⟩ | ⟨-, -, rfl⟩ | ⟨-, ht⟩
  · exact .inl rfl
  · obtain ⟨-, -, -, rfl⟩ := fpRead_next.mp ht
    exact .inl rfl
  · obtain ⟨-, -, -, -, -, rfl⟩ := fpErase_next.mp ht
    exact .inr ⟨.inl hp, .of_writeList rfl List.length_replicate⟩
  · exact .inl rfl
  · exact .inl rfl
  · obtain ⟨-, -, -, rfl⟩ := fpFill_next.mp ht
    rw [captureVector_eq]
    exact .inl rfl
  · exact .inl rfl
  · exact .inl rfl
  · obtain ⟨-, -, -, -, -, -, -, rfl⟩ := fpCommit_next.mp ht
    exact .inr ⟨.inr hp, .of_writeList rfl (Memory.length_readList ..)⟩
  · exact .inl rfl
  · obtain ⟨-, rfl⟩ := fpRww_next.mp ht
    exact .inl rfl

/-- Both branches of the power-on decision leave FLASH as the reset does (43_boot_controller.md R300). -/
theorem resetStep_flash (h : resetStep s = .next t) : ∃ k, t.fc.flash = flashAfterReset s k := by
  unfold resetStep at h
  split at h
  · obtain ⟨-, -, -, rfl⟩ := handoff_next.mp h
    exact ⟨_, rfl⟩
  · cases h
    exact ⟨_, rfl⟩

theorem flashAfterReset_of_no_sequence (hp : s.fp.phase = .idle ∨ s.fp.phase = .done) (k : Nat) :
    flashAfterReset s k = s.fc.flash :=
  if_pos hp

theorem SameOutsidePage.of_reset {k : Nat} (h : t.fc.flash = flashAfterReset s k) :
    SameOutsidePage s.fp.page s t := by
  unfold flashAfterReset at h
  split at h
  · exact .of_flash_eq h
  · exact .of_writeList h (length_drawBytes ..)

/-! ## The obligations -/

/-- The front of a step leaves FLASH and the configuration alone. -/
theorem sameOutsidePage_begun {p : Nat} : SameOutsidePage p (begun s) t ↔ SameOutsidePage p s t := by
  simp [SameOutsidePage]

/-- Settles O11: a reset draws at most the page of the sequence it interrupts. -/
theorem resetKeepsOtherPages : Obligations.ResetKeepsOtherPages := by
  intro s t hrst ht
  obtain ⟨-, ⟨-, hr⟩ | ⟨hno, -⟩⟩ := step_next.mp ht
  · obtain ⟨k, hk⟩ := resetStep_flash hr
    refine ⟨fun hp => ?_, sameOutsidePage_begun.mp (by simpa using SameOutsidePage.of_reset hk)⟩
    rw [hk, flashAfterReset_of_no_sequence (by rwa [begun_fp]), begun_fc]
  · rw [hrst] at hno
    cases hno

/-- Settles O17: an ordinary step is the programmer's, which writes FLASH in ERASE and COMMIT, or leaves the flash
controller alone. -/
theorem flashWriters : Obligations.FlashWriters := by
  intro s t ho ht
  rcases controllerStep_programmer_or_fc ((step_of_ordinary ho).symm.trans ht) with hp | hfc
  · simpa [sameOutsidePage_begun] using programmerStep_flash hp
  · exact .inl (by rw [hfc, begun_fc])

/-- A step, resets included, leaves FLASH as it is, or a sequence runs and only its page changes. -/
theorem step_flash (ht : step s = .next t) :
    t.fc.flash = s.fc.flash ∨ (s.fp.phase ≠ .idle ∧ SameOutsidePage s.fp.page s t) := by
  cases hrst : (nextInput s).rst with
  | true =>
    obtain ⟨hkept, hpage⟩ := resetKeepsOtherPages s t hrst ht
    by_cases hp : s.fp.phase = .idle
    · exact .inl (hkept (.inl hp))
    · exact .inr ⟨hp, hpage⟩
  | false =>
    obtain ⟨hok, -⟩ := step_next.mp ht
    rcases flashWriters s t ⟨hok, hrst⟩ ht with hkept | ⟨hp, hpage⟩
    · exact .inl hkept
    · exact .inr ⟨by rcases hp with hp | hp <;> simp [hp], hpage⟩

/-- Settles O53: a step changes the page of a running sequence at most, and the invariant puts that page below
BOOT_START. -/
theorem selfPreservation : Obligations.SelfPreservation := by
  intro s t h ht a ha
  rcases step_flash ht with hkept | ⟨hp, hpage⟩
  · rw [hkept]
  · obtain ⟨-, hbelow⟩ := h.page hp
    exact hpage a (.inr (hbelow.trans ha))

/-- Settles O57: no sequence runs after the hand-off, and without one the controller is idle and reads are enabled. -/
theorem fetchLegalAtHandoff : Obligations.FetchLegalAtHandoff := by
  intro s h hrun
  obtain ⟨hbusy, hrww⟩ := h.flash_idle (.inl (h.fp_idle (by simp [hrun])))
  exact ⟨hrww, hbusy⟩

end Sys2Proof.Machine
end

section
/-! When the five flash operations fault (20_memory.md R84 to R89): the guards that fault, whatever kind they name. A
later guard that refuses adds no fault. -/

namespace Sys2Proof.Machine

/-- A guard that raises a fault of the operation adds its condition to those of the rest. -/
theorem faults_else_iff {c : Prop} [Decidable c] {kind : FaultKind} {op : FlashOp} {r : Result} :
    (∃ k, (if c then .fault (.flashProtocol kind op) else r) = .fault (.flashProtocol k op)) ↔
      c ∨ ∃ k, r = .fault (.flashProtocol k op) := by
  split <;> simp_all

/-- The same of a read. -/
theorem errors_else_iff {c : Prop} [Decidable c] {kind : FaultKind} {op : FlashOp} {r : Except Fault (List Byte)} :
    (∃ k, (if c then .error (.flashProtocol kind op) else r) = .error (.flashProtocol k op)) ↔
      c ∨ ∃ k, r = .error (.flashProtocol k op) := by
  split <;> simp_all

/-- A guard that refuses: a fault is the rest's. -/
theorem refused_else_fault {c : Prop} [Decidable c] {e : Refusal} {r : Result} {f : Fault} :
    (if c then .refused e else r) = .fault f ↔ ¬c ∧ r = .fault f := by
  split <;> simp_all

theorem fcBusy_eq_true {s : State} : fcBusy s = true ↔ 0 < s.fc.busyLeft := by
  simp [fcBusy]

theorem fcRead_faults {a n : Nat} {s : State} :
    (∃ k, fcRead a n s = .error (.flashProtocol k (.read a n))) ↔
      0 < s.fc.busyLeft ∨ s.fc.rwwEn = false ∨ s.cfg.flashSize < a + n := by
  simp only [fcRead, errors_else_iff, fcBusy_eq_true, reduceCtorEq, exists_false, or_false]

theorem fcErase_faults {p : Nat} {s : State} :
    (∃ k, fcErase p s = .fault (.flashProtocol k (.erase p))) ↔
      0 < s.fc.busyLeft ∨ p % s.cfg.pageSize ≠ 0 ∨ s.cfg.flashSize ≤ p := by
  simp only [fcErase, faults_else_iff, refused_else_fault, fcBusy_eq_true, reduceCtorEq, and_false, exists_false,
    or_false]

theorem fcFill_faults {off : Nat} {w : Word} {s : State} :
    (∃ k, fcFill off w s = .fault (.flashProtocol k (.fill off w))) ↔
      0 < s.fc.busyLeft ∨ off % 2 = 1 ∨ s.cfg.pageSize ≤ off := by
  simp only [fcFill, faults_else_iff, refused_else_fault, fcBusy_eq_true, Nat.mod_two_ne_zero, reduceCtorEq,
    and_false, exists_false, or_false]

theorem fcCommit_faults {p : Nat} {s : State} :
    (∃ k, fcCommit p s = .fault (.flashProtocol k (.commit p))) ↔
      0 < s.fc.busyLeft ∨ p % s.cfg.pageSize ≠ 0 ∨ s.cfg.flashSize ≤ p := by
  simp only [fcCommit, faults_else_iff, refused_else_fault, fcBusy_eq_true, reduceCtorEq, and_false, exists_false,
    or_false]

theorem fcRwwEn_faults {s : State} :
    (∃ k, fcRwwEn s = .fault (.flashProtocol k .rwwEn)) ↔ 0 < s.fc.busyLeft := by
  simp only [fcRwwEn, faults_else_iff, fcBusy_eq_true, reduceCtorEq, exists_false, or_false]

/-- Settles O47: the faulting guards of each operation are its conditions. -/
theorem flashProtocolFaults : Obligations.FlashProtocolFaults := fun _ =>
  ⟨fun _ _ => fcRead_faults, fun _ => fcErase_faults, fun _ _ => fcFill_faults, fun _ => fcCommit_faults,
    fcRwwEn_faults⟩

end Sys2Proof.Machine
end

section
/-! The decoder and the encoder are inverse to each other (30_encoding.md R130 to R137): on frames through the seven
header bytes, on commands through the match bits and the free bits of a row of the opcode table. -/

namespace Sys2Proof

/-! ## Frames -/

/-- The frame whose header bytes and payload stand at the offsets of 30_encoding.md R130. -/
def frameOf (b1 b2 b3 b4 b5 b6 : Byte) (payload : List Byte) : Frame :=
  { page := le16 b1 b2, length := le16 b3 b4, checksum := le16 b5 b6, payload := payload }

@[simp] theorem encodeFrame_frameOf (b1 b2 b3 b4 b5 b6 : Byte) (payload : List Byte) :
    encodeFrame (frameOf b1 b2 b3 b4 b5 b6 payload) = b1 :: b2 :: b3 :: b4 :: b5 :: b6 :: payload := by
  simp [encodeFrame, frameOf, leBytes]

/-- Every frame is the one of its own header bytes. -/
theorem frameOf_bytes (f : Frame) :
    frameOf (loByte f.page) (hiByte f.page) (loByte f.length) (hiByte f.length) (loByte f.checksum)
      (hiByte f.checksum) f.payload = f := by
  simp [frameOf]

/-- The decoder reads a command byte and a frame of the right length. -/
theorem decode_cons_encodeFrame {n : Nat} (c : Byte) {f : Frame} (h : f.payload.length = n) :
    decode n (c :: encodeFrame f) = .ok (decodeCommand c f) := by
  refine (if_pos h).trans ?_
  exact congrArg (Except.ok ∘ decodeCommand c) (frameOf_bytes f)

/-- What the decoder accepts: a command byte and a frame whose payload has PAGE_SIZE bytes (30_encoding.md R130). -/
theorem decode_eq_ok_iff {n : Nat} {bs : List Byte} {i : Instr} :
    decode n bs = .ok i ↔
      ∃ c f, bs = c :: encodeFrame f ∧ f.payload.length = n ∧ decodeCommand c f = i := by
  constructor
  · intro h
    unfold decode at h
    split at h
    next c b1 b2 b3 b4 b5 b6 payload =>
      split at h
      next hlen => exact ⟨c, frameOf b1 b2 b3 b4 b5 b6 payload, by simp, hlen, Except.ok.inj h⟩
      next => cases h
    next => cases h
  · rintro ⟨c, f, rfl, hlen, rfl⟩
    exact decode_cons_encodeFrame c hlen

/-- The decoder's only refusal names the length (30_encoding.md R132). -/
theorem decode_eq_error {n : Nat} {bs : List Byte} {e : DecodeError} (h : decode n bs = .error e) :
    e = .frameLength bs.length := by
  unfold decode at h
  split at h
  · split at h <;> cases h
    rfl
  · cases h
    rfl

/-- A list of seven bytes or more is a command byte and a frame (30_encoding.md R137). -/
theorem exists_eq_cons_encodeFrame {n : Nat} {bs : List Byte} (h : bs.length = n + 7) :
    ∃ c f, bs = c :: encodeFrame f ∧ f.payload.length = n := by
  match bs, h with
  | c :: b1 :: b2 :: b3 :: b4 :: b5 :: b6 :: payload, h =>
    exact ⟨c, frameOf b1 b2 b3 b4 b5 b6 payload, by simp, by simpa [frameOf] using h⟩

theorem decode_of_length {n : Nat} {bs : List Byte} (h : bs.length = n + 7) : ∃ i, decode n bs = .ok i := by
  obtain ⟨c, f, rfl, hlen⟩ := exists_eq_cons_encodeFrame h
  exact ⟨_, decode_cons_encodeFrame c hlen⟩

theorem length_of_decode {n : Nat} {bs : List Byte} {i : Instr} (h : decode n bs = .ok i) : bs.length = n + 7 := by
  obtain ⟨c, f, rfl, hlen, -⟩ := decode_eq_ok_iff.mp h
  rw [List.length_cons, length_encodeFrame]
  omega

/-! ## Commands -/

/-- A byte holds the match bits `r` of a row of the opcode table exactly when they are its quotient by the free bits. -/
theorem extractLsb'_eq_iff {k m : Nat} {c : BitVec (m + k)} {r : BitVec m} :
    c.extractLsb' k m = r ↔ c.toNat / 2 ^ k = r.toNat := by
  have hlt : c.toNat / 2 ^ k < 2 ^ m := Nat.div_lt_of_lt_mul (by simpa [← Nat.pow_add, Nat.add_comm k] using c.isLt)
  rw [← BitVec.toNat_inj, BitVec.extractLsb'_toNat, Nat.shiftRight_eq_div_pow, Nat.mod_eq_of_lt hlt]

/-- A bit vector is its match bits before its free bits. -/
theorem append_extractLsb'_of_eq {m k : Nat} {c : BitVec (m + k)} {r : BitVec m} (h : c.extractLsb' k m = r) :
    r ++ c.extractLsb' 0 k = c := by
  rw [← h, BitVec.extractLsb'_append_extractLsb'_eq_extractLsb' (by omega), BitVec.extractLsb'_eq_self]

/-- Every byte lies in a row of 30_encoding.md R136: outside the eleven others its bit 7 is set. -/
theorem extractLsb'_of_no_other_row {c : Byte} (h0 : c ≠ 0#8) (h1 : c ≠ 1#8) (h2 : c ≠ 2#8) (h3 : c ≠ 3#8)
    (h4 : c ≠ 4#8) (h5 : c ≠ 5#8) (h6 : c.extractLsb' 1 7 ≠ 0b0000011#7) (h8 : c.extractLsb' 3 5 ≠ 0b00001#5)
    (h10 : c.extractLsb' 4 4 ≠ 0b0001#4) (h20 : c.extractLsb' 5 3 ≠ 0b001#3) (h40 : c.extractLsb' 6 2 ≠ 0b01#2) :
    c.extractLsb' 7 1 = 0b1#1 := by
  have hsix : 6 ≤ c.toNat := by bv_omega
  clear h0 h1 h2 h3 h4 h5
  rw [Ne, extractLsb'_eq_iff] at h6 h8 h10 h20 h40
  rw [extractLsb'_eq_iff]
  bv_omega

/-- One branch of the decoder's selection. -/
theorem reads_ite {p : Prop} [Decidable p] {a b : Instr} {c : Byte} {f : Frame}
    (ha : p → commandByte a = c ∧ a.frame = f) (hb : ¬p → commandByte b = c ∧ b.frame = f) :
    commandByte (if p then a else b) = c ∧ (if p then a else b).frame = f :=
  iteInduction (motive := fun i => commandByte i = c ∧ i.frame = f) ha hb

/-- No bit of the command byte is dropped, and the fields stand (30_encoding.md R136). -/
theorem decodeCommand_reads (c : Byte) (f : Frame) :
    commandByte (decodeCommand c f) = c ∧ (decodeCommand c f).frame = f := by
  unfold decodeCommand
  refine reads_ite (fun h => ⟨h.symm, rfl⟩) fun h0 => ?_
  refine reads_ite (fun h => ⟨h.symm, rfl⟩) fun h1 => ?_
  refine reads_ite (fun h => ⟨h.symm, rfl⟩) fun h2 => ?_
  refine reads_ite (fun h => ⟨h.symm, rfl⟩) fun h3 => ?_
  refine reads_ite (fun h => ⟨h.symm, rfl⟩) fun h4 => ?_
  refine reads_ite (fun h => ⟨h.symm, rfl⟩) fun h5 => ?_
  refine reads_ite (fun h => ⟨append_extractLsb'_of_eq h, rfl⟩) fun h6 => ?_
  refine reads_ite (fun h => ⟨append_extractLsb'_of_eq h, rfl⟩) fun h8 => ?_
  refine reads_ite (fun h => ⟨append_extractLsb'_of_eq h, rfl⟩) fun h10 => ?_
  refine reads_ite (fun h => ⟨append_extractLsb'_of_eq h, rfl⟩) fun h20 => ?_
  refine reads_ite (fun h => ⟨append_extractLsb'_of_eq h, rfl⟩) fun h40 => ?_
  exact ⟨append_extractLsb'_of_eq (extractLsb'_of_no_other_row h0 h1 h2 h3 h4 h5 h6 h8 h10 h20 h40), rfl⟩

@[simp] theorem frame_decodeCommand (c : Byte) (f : Frame) : (decodeCommand c f).frame = f :=
  (decodeCommand_reads c f).2

theorem decodeCommand_commandByte (i : Instr) : decodeCommand (commandByte i) i.frame = i := by
  cases i with
  | noCommand f => exact Laws.CommandSelects.noCommand f
  | test f => exact Laws.CommandSelects.test f
  | program f => exact Laws.CommandSelects.program f
  | run f => exact Laws.CommandSelects.run f
  | eepromWrite f => exact Laws.CommandSelects.eepromWrite f
  | exit f => exact Laws.CommandSelects.exit f
  | unrecognised06 b f => exact Laws.CommandSelects.unrecognised06 b f
  | unrecognised08 b f => exact Laws.CommandSelects.unrecognised08 b f
  | unrecognised10 b f => exact Laws.CommandSelects.unrecognised10 b f
  | unrecognised20 b f => exact Laws.CommandSelects.unrecognised20 b f
  | unrecognised40 b f => exact Laws.CommandSelects.unrecognised40 b f
  | unrecognised80 b f => exact Laws.CommandSelects.unrecognised80 b f

/-- A byte and a frame decode to an instruction exactly when they are its own (30_encoding.md R136). -/
theorem decodeCommand_eq_iff {c : Byte} {f : Frame} {i : Instr} :
    decodeCommand c f = i ↔ commandByte i = c ∧ i.frame = f := by
  constructor
  · rintro rfl
    exact decodeCommand_reads c f
  · rintro ⟨rfl, rfl⟩
    exact decodeCommand_commandByte i

theorem selects_code_iff {c : Byte} {f : Frame} {i : Instr} (hf : i.frame = f) :
    decodeCommand c f = i ↔ c.toNat = (commandByte i).toNat := by
  rw [decodeCommand_eq_iff, BitVec.toNat_inj, eq_comm (a := c), and_iff_left hf]

theorem selects_row_iff {k : Nat} {c : Byte} {f : Frame} (row : BitVec k → Instr) (hf : ∀ b, (row b).frame = f) :
    (∃ b, decodeCommand c f = row b) ↔ ∃ b, commandByte (row b) = c :=
  exists_congr fun b => decodeCommand_eq_iff.trans (and_iff_left (hf b))

/-- The vectors that begin with the match bits `r` are those whose quotient by the `k` free bits is `r`. -/
theorem exists_append_eq_iff {m k : Nat} (r : BitVec m) (c : BitVec (m + k)) :
    (∃ b : BitVec k, r ++ b = c) ↔ c.toNat / 2 ^ k = r.toNat := by
  rw [← extractLsb'_eq_iff]
  constructor
  · rintro ⟨b, rfl⟩
    exact BitVec.extractLsb'_append_eq_left
  · exact fun h => ⟨_, append_extractLsb'_of_eq h⟩

/-! ## The obligations -/

/-- Settles O1: the frame decodes to its own fields, and the command byte to its own row. -/
theorem encodeThenDecode : Obligations.EncodeThenDecode := by
  intro c i hwf
  rw [encode, decode_cons_encodeFrame _ (beq_iff_eq.mp hwf), decodeCommand_commandByte]

/-- Settles O2: what is decoded has the byte and the frame that were read. -/
theorem decodeThenEncode : Obligations.DecodeThenEncode := by
  intro c bs i h
  obtain ⟨cmd, f, rfl, hlen, hi⟩ := decode_eq_ok_iff.mp h
  obtain ⟨rfl, rfl⟩ := decodeCommand_eq_iff.mp hi
  exact ⟨rfl, beq_iff_eq.mpr hlen⟩

/-- Settles O3: FRAME_SIZE bytes are a command byte and a frame; another list is refused, and the refusal is named. -/
theorem decodeOfLength : Obligations.DecodeOfLength := by
  intro c bs
  refine ⟨decode_of_length, fun hne => ?_⟩
  cases h : decode c.pageSize bs with
  | ok i => exact absurd (length_of_decode h) hne
  | error e => rw [decode_eq_error h]

/-- Settles O4: a byte selects a code or a row exactly when it is a command byte of it. -/
theorem commandByteSelects : Obligations.CommandByteSelects := by
  intro c f
  refine ⟨selects_code_iff rfl, selects_code_iff rfl, selects_code_iff rfl, selects_code_iff rfl,
    selects_code_iff rfl, selects_code_iff rfl,
    (selects_row_iff (.unrecognised06 · f) fun _ => rfl).trans
      ((exists_append_eq_iff (k := 1) 0b0000011#7 c).trans ?row06),
    (selects_row_iff (.unrecognised08 · f) fun _ => rfl).trans
      ((exists_append_eq_iff (k := 3) 0b00001#5 c).trans ?row08),
    (selects_row_iff (.unrecognised10 · f) fun _ => rfl).trans
      ((exists_append_eq_iff (k := 4) 0b0001#4 c).trans ?row10),
    (selects_row_iff (.unrecognised20 · f) fun _ => rfl).trans
      ((exists_append_eq_iff (k := 5) 0b001#3 c).trans ?row20),
    (selects_row_iff (.unrecognised40 · f) fun _ => rfl).trans
      ((exists_append_eq_iff (k := 6) 0b01#2 c).trans ?row40),
    (selects_row_iff (.unrecognised80 · f) fun _ => rfl).trans
      ((exists_append_eq_iff (k := 7) 0b1#1 c).trans ?row80)⟩
  all_goals bv_omega

/-- Settles O5: the frame that is read keeps its header bytes. -/
theorem headerFields : Obligations.HeaderFields := by
  intro c cmd b1 b2 b3 b4 b5 b6 payload i h
  have hlen : payload.length = c.pageSize := by simpa using length_of_decode h
  rw [← encodeFrame_frameOf b1, decode_cons_encodeFrame cmd hlen] at h
  obtain rfl := Except.ok.inj h
  rw [frame_decodeCommand]
  exact ⟨toNat_le16 b1 b2, toNat_le16 b3 b4, toNat_le16 b5 b6, rfl, congrArg (c.pageSize * ·) (toNat_le16 b1 b2)⟩

/-- Settles O6: each side is the same instruction by evaluation. -/
theorem specFramesDecode : Obligations.SpecFramesDecode := ⟨rfl, rfl, rfl, rfl⟩

end Sys2Proof
end

section
/-! One data cell of any waveform (30_encoding.md R122): the edge, the wait for the sample point, the sample. -/

namespace Sys2Proof.Machine

variable {s : State} {b : Bool} {w : List Bool}

/-! ## Listed inputs -/

/-- While inputs are listed, the next step samples the first and leaves the others. -/
theorem sampleInputs_of_pins (h : s.env.inputs.map (·.pinIn) = b :: w) :
    ∃ i rest, s.env.inputs = i :: rest ∧ sampleInputs s = { s with env := { inp := i, inputs := rest } } ∧
      i.pinIn = b ∧ rest.map (·.pinIn) = w := by
  obtain ⟨i, rest, hlist, hpin, hrest⟩ := List.map_eq_cons_iff.mp h
  exact ⟨i, rest, hlist, by simp [sampleInputs, hlist], hpin, hrest⟩

theorem nextInput_pinIn (h : s.env.inputs.map (·.pinIn) = b :: w) : (nextInput s).pinIn = b := by
  obtain ⟨i, rest, -, hsample, hpin, -⟩ := sampleInputs_of_pins h
  rw [nextInput, hsample, hpin]

theorem pins_begun (h : s.env.inputs.map (·.pinIn) = b :: w) : (begun s).env.inputs.map (·.pinIn) = w := by
  obtain ⟨i, rest, -, hsample, -, hrest⟩ := sampleInputs_of_pins h
  rw [tick_env, hsample, hrest]

/-- Sampling leaves fewer inputs listed. -/
theorem CalmInputs.begun (h : CalmInputs s) : CalmInputs (begun s) := by
  intro i hi
  rw [tick_env, sampleInputs] at hi
  split at hi
  · exact h i hi
  · next hlist => exact h i (by rw [hlist]; exact List.mem_cons_of_mem _ hi)

/-- A calm environment meets its duties while the decoder runs: the programmer is idle then. -/
theorem ordinary_of_calm (h : Inv s) (hc : CalmInputs s) (hr : Receiving s)
    (hpins : s.env.inputs.map (·.pinIn) = b :: w) : Ordinary s := by
  obtain ⟨i, rest, hlist, hsample, -, -⟩ := sampleInputs_of_pins hpins
  obtain ⟨hrst, hirq⟩ := hc i (by simp [hlist])
  have hfp : s.fp.phase = .idle := h.fp_idle (by simp [hr.2])
  simp [Ordinary, nextInput, hsample, stepRefusal, h.cfg, hrst, hirq, hfp, inCriticalSpan]

/-! ## The data phases -/

theorem decDataEdge_of_edge (hpin : pinChanged s = true) :
    decDataEdge s = { captureRef s with dec.tmr := 0, dec.phase := .dataSample } :=
  if_pos hpin

theorem decDataSample_before (h : s.dec.tmr < s.dec.delay) : decDataSample s = s :=
  if_neg (Nat.not_le.mpr h)

/-- Completing a frame touches neither the bit index, nor the reference level, nor the frame buffer. -/
theorem frameComplete_dec_frame (s : State) :
    (frameComplete s).dec.bitIdx = s.dec.bitIdx ∧ (frameComplete s).dec.ref = s.dec.ref ∧
      (frameComplete s).frame = s.frame := by
  unfold frameComplete
  simp only
  split <;> exact ⟨rfl, rfl, rfl⟩

/-- At the sample point the bit is stored, the level captured and the index counted up (40_decoder.md R168), whether
or not the bit is the frame's last. -/
theorem decDataSample_at (h : s.dec.delay ≤ s.dec.tmr) :
    (decDataSample s).dec.bitIdx = s.dec.bitIdx + 1 ∧ (decDataSample s).dec.ref = s.env.inp.pinIn ∧
      (decDataSample s).frame = (storeBit s s.dec.bitIdx (pinChanged s)).frame := by
  unfold decDataSample
  rw [if_pos h]
  simp only
  split
  · exact frameComplete_dec_frame _
  · exact ⟨rfl, rfl, rfl⟩

theorem getLsbD_read_storeBit (s : State) (i : Nat) (v : Bool) (a : Nat) {k : Nat} (hk : k < 8) :
    ((storeBit s i v).frame.read a).getLsbD k =
      if a = i / 8 ∧ k = 7 - i % 8 then v else (s.frame.read a).getLsbD k := by
  rw [storeBit, Memory.read_write]
  by_cases ha : a = i / 8
  · rw [if_pos ha.symm, getLsbD_setBit _ _ (by omega) hk, ha]
    simp
  · rw [if_neg (Ne.symm ha), if_neg (fun h => ha h.1)]

/-- A line is at another level than at first exactly when it changed an odd number of times. -/
theorem levelChanges_odd (l : Bool) (w : List Bool) : (levelChanges l w % 2 == 1) = (w.getLastD l != l) := by
  induction w generalizing l with
  | nil => simp [levelChanges]
  | cons b w ih =>
    rw [levelChanges, List.getLastD_cons]
    by_cases h : b = l
    · rw [if_pos h, Nat.zero_add, ih, h]
    · have hflip : ((1 + levelChanges b w) % 2 == 1) = !(levelChanges b w % 2 == 1) := by
        rcases Nat.mod_two_eq_zero_or_one (levelChanges b w) with h0 | h0 <;> simp [Nat.add_mod, h0]
      rw [if_neg h, hflip, ih, Bool.eq_not_of_ne h]
      simp

/-! ## From the edge to the sample point -/

theorem step_dataEdge (ho : Ordinary s) (hr : Receiving s) (hp : s.dec.phase = .dataEdge) :
    step s = .next (decDataEdge (begun s)) := by
  rw [step_of_receiving ho hr, decoderStep, begun_dec, hp]

theorem step_dataSample (ho : Ordinary s) (hr : Receiving s) (hp : s.dec.phase = .dataSample) :
    step s = .next (decDataSample (begun s)) := by
  rw [step_of_receiving ho hr, decoderStep, begun_dec, hp]

/-- Inside a data cell after its edge: `w` are the levels of the steps up to the sample point, none of them sampled
yet. -/
structure InDataCell (s : State) (w : List Bool) : Prop where
  inv : Inv s
  calm : CalmInputs s
  receiving : Receiving s
  phase : s.dec.phase = .dataSample
  pins : s.env.inputs.map (·.pinIn) = w
  left : s.dec.tmr + w.length = max 1 s.dec.delay

/-- Up to the sample point the timer counts without wrapping. -/
theorem InDataCell.nextTmr_eq (h : InDataCell s (b :: w)) : nextTmr s = s.dec.tmr + 1 := by
  have hleft := h.left
  have hdelay := h.inv.ranges.delay
  have hone : 1 < 2 ^ s.cfg.timerW := Nat.one_lt_two_pow (by have := Config.wf_iff.mp h.inv.cfg; omega)
  rw [List.length_cons] at hleft
  exact Nat.mod_eq_of_lt (by omega)

theorem InDataCell.step_eq (h : InDataCell s (b :: w)) : step s = .next (decDataSample (begun s)) :=
  step_dataSample (ordinary_of_calm h.inv h.calm h.receiving h.pins) h.receiving h.phase

/-- Before the sample point a step only counts. -/
theorem InDataCell.step_before {b' : Bool} (h : InDataCell s (b :: b' :: w)) :
    step s = .next (begun s) ∧ InDataCell (begun s) (b' :: w) := by
  have hleft := h.left
  simp only [List.length_cons] at hleft
  have hstep : step s = .next (begun s) := by
    rw [h.step_eq, decDataSample_before (by rw [begun_dec, h.nextTmr_eq]; show s.dec.tmr + 1 < s.dec.delay; omega)]
  refine ⟨hstep,
    { inv := stepKeepsInv _ _ h.inv hstep
      calm := h.calm.begun
      receiving := by rw [Receiving, begun_boot]; exact h.receiving
      phase := by rw [begun_dec]; exact h.phase
      pins := pins_begun h.pins
      left := ?_ }⟩
  rw [begun_dec, h.nextTmr_eq]
  show s.dec.tmr + 1 + (w.length + 1) = max 1 s.dec.delay
  omega

/-- At the sample point the level is compared with the level after the edge. -/
theorem InDataCell.step_at (h : InDataCell s [b]) :
    ∃ t, step s = .next t ∧ t.dec.bitIdx = s.dec.bitIdx + 1 ∧ t.dec.ref = b ∧
      t.frame = (storeBit s s.dec.bitIdx (b != s.dec.ref)).frame := by
  have hleft := h.left
  rw [List.length_singleton] at hleft
  have hpin : (nextInput s).pinIn = b := nextInput_pinIn h.pins
  obtain ⟨hidx, href, hframe⟩ := decDataSample_at (s := begun s)
    (by rw [begun_dec, h.nextTmr_eq]; show s.dec.delay ≤ s.dec.tmr + 1; omega)
  refine ⟨_, h.step_eq, ?_, href.trans hpin, ?_⟩
  · simpa using hidx
  · rw [hframe, pinChanged_begun, hpin]
    simp [storeBit]

/-- From the edge of a data cell to its sample point: no level but the last counts. -/
theorem InDataCell.runSteps (h : InDataCell s (b :: w)) :
    ∃ t, runSteps (w.length + 1) s = .next t ∧ t.dec.bitIdx = s.dec.bitIdx + 1 ∧ t.dec.ref = w.getLastD b ∧
      t.frame = (storeBit s s.dec.bitIdx (w.getLastD b != s.dec.ref)).frame := by
  induction w generalizing s b with
  | nil =>
    obtain ⟨t, hstep, ht⟩ := h.step_at
    exact ⟨t, by rw [Machine.runSteps, hstep]; rfl, ht⟩
  | cons b' w ih =>
    obtain ⟨hstep, hcell⟩ := h.step_before
    obtain ⟨t, hrun, hidx, href, hframe⟩ := ih hcell
    refine ⟨t, by rw [Machine.runSteps, hstep]; exact hrun, ?_, by rw [href, List.getLastD_cons], ?_⟩
    · simpa using hidx
    · rw [hframe, List.getLastD_cons]
      simp [storeBit]

/-- The edge of a data cell opens it: the level after the edge is the reference (40_decoder.md R167). -/
theorem step_edge_inDataCell (h : Inv s) (hc : CalmInputs s) (hr : Receiving s) (hp : s.dec.phase = .dataEdge)
    (hpins : s.env.inputs.map (·.pinIn) = (!s.dec.ref) :: w) (hlen : w.length = max 1 s.dec.delay) :
    ∃ t, step s = .next t ∧ InDataCell t w ∧ t.dec.bitIdx = s.dec.bitIdx ∧ t.dec.ref = !s.dec.ref ∧
      t.frame = s.frame := by
  have hpin : (nextInput s).pinIn = !s.dec.ref := nextInput_pinIn hpins
  have hedge : pinChanged (begun s) = true := by rw [pinChanged_begun, hpin]; simp
  have hstep := step_dataEdge (ordinary_of_calm h hc hr hpins) hr hp
  rw [decDataEdge_of_edge hedge] at hstep
  refine ⟨_, hstep,
    { inv := stepKeepsInv _ _ h hstep
      calm := hc.begun
      receiving := by simpa [Receiving] using hr
      phase := rfl
      pins := pins_begun hpins
      left := by simpa using hlen }, ?_, hpin, ?_⟩
  · simp
  · simp

/-- Settles O38: the level at the sample point differs from the level after the edge exactly when the pin changed an
odd number of times between them. -/
theorem dataCellParity : Obligations.DataCellParity := by
  intro s w h hc hr hp hpins hlen
  obtain ⟨u, hstep, hcell, hidx, href, hframe⟩ := step_edge_inDataCell h hc hr hp hpins hlen
  cases w with
  | nil =>
    rw [List.length_nil] at hlen
    omega
  | cons b w =>
    obtain ⟨t, hrun, htidx, htref, htframe⟩ := hcell.runSteps
    refine ⟨t, by rw [Machine.runSteps, hstep]; exact hrun, by rw [htidx, hidx],
      by rw [htref, List.getLastD_cons], fun a k hk => ?_⟩
    rw [htframe, getLsbD_read_storeBit _ _ _ _ hk, hidx, href, hframe, levelChanges_odd, List.getLastD_cons]

end Sys2Proof.Machine
end

section
/-! An inverted signal (30_encoding.md R120): sampling, the front of a step and every rule of the block commute with
the inversion of every pin level. A rule that does not look at the pin commutes by computation. The others compare the
pin with a reference level that is inverted with it, or capture it as one. -/

namespace Sys2Proof.Machine

/-- The inversion passes through a choice. -/
theorem mapNext_ite {p : Prop} [Decidable p] (f : State → State) (a b : Result) :
    mapNext f (if p then a else b) = if p then mapNext f a else mapNext f b :=
  apply_ite (mapNext f) p a b

theorem invertPin_ite {p : Prop} [Decidable p] (a b : State) :
    invertPin (if p then a else b) = if p then invertPin a else invertPin b :=
  apply_ite invertPin p a b

/-- The inversion passes through a sequence of rules. -/
theorem andThen_invertPin {r r' : Result} {k k' : State → Result} (hr : r' = mapNext invertPin r)
    (hk : ∀ t, k' (invertPin t) = mapNext invertPin (k t)) : andThen r' k' = mapNext invertPin (andThen r k) := by
  subst hr
  cases r with
  | next t => exact hk t
  | fault e => rfl
  | refused r => rfl

variable (s : State)

/-! ## What the inversion leaves -/

@[simp] theorem invertPin_cfg : (invertPin s).cfg = s.cfg := rfl
@[simp] theorem invertPin_boot_bootState : (invertPin s).boot.bootState = s.boot.bootState := rfl
@[simp] theorem invertPin_boot_lstPhase : (invertPin s).boot.lstPhase = s.boot.lstPhase := rfl
@[simp] theorem invertPin_dec_phase : (invertPin s).dec.phase = s.dec.phase := rfl
@[simp] theorem invertPin_fp : (invertPin s).fp = s.fp := rfl
@[simp] theorem invertPin_env_inp_rst : (invertPin s).env.inp.rst = s.env.inp.rst := rfl

/-! ## The front of a step -/

theorem sampleInputs_invertPin : sampleInputs (invertPin s) = invertPin (sampleInputs s) := by
  unfold sampleInputs invertPin
  cases h : s.env.inputs with
  | nil => simp [h]
  | cons i rest => simp

theorem stepRefusal_invertPin : stepRefusal (invertPin s) = stepRefusal s := rfl

theorem tick_invertPin : tick (invertPin s) = invertPin (tick s) := rfl

/-! ## The decoder -/

theorem pinChanged_invertPin : pinChanged (invertPin s) = pinChanged s := Bool.not_bne_not _ _

theorem waitEdge_invertPin : waitEdge (invertPin s) = waitEdge s := Bool.not_bne_not _ _

theorem decSyncFirst_invertPin : decSyncFirst (invertPin s) = invertPin (decSyncFirst s) := by
  rw [decSyncFirst, pinChanged_invertPin, decSyncFirst, invertPin_ite]
  rfl

theorem decSyncMeas_invertPin : decSyncMeas (invertPin s) = invertPin (decSyncMeas s) := by
  simp only [decSyncMeas, pinChanged_invertPin, invertPin_ite]
  rfl

theorem decStartSample_invertPin : decStartSample (invertPin s) = invertPin (decStartSample s) := by
  simp only [decStartSample, pinChanged_invertPin, invertPin_ite]
  rfl

theorem decStartEdge_invertPin : decStartEdge (invertPin s) = invertPin (decStartEdge s) := by
  rw [decStartEdge, pinChanged_invertPin, decStartEdge, invertPin_ite]
  rfl

theorem decDataEdge_invertPin : decDataEdge (invertPin s) = invertPin (decDataEdge s) := by
  rw [decDataEdge, pinChanged_invertPin, decDataEdge, invertPin_ite]
  rfl

theorem frameComplete_invertPin : frameComplete (invertPin s) = invertPin (frameComplete s) := by
  simp only [frameComplete, invertPin_ite]
  rfl

theorem decDataSample_invertPin : decDataSample (invertPin s) = invertPin (decDataSample s) := by
  simp only [decDataSample, pinChanged_invertPin, invertPin_ite, ← frameComplete_invertPin]
  rfl

theorem decoderStep_invertPin : decoderStep (invertPin s) = invertPin (decoderStep s) := by
  unfold decoderStep
  rw [invertPin_dec_phase]
  cases s.dec.phase with
  | idle => rfl
  | syncFirst => exact decSyncFirst_invertPin s
  | syncMeas => exact decSyncMeas_invertPin s
  | startSample => exact decStartSample_invertPin s
  | startEdge => exact decStartEdge_invertPin s
  | dataEdge => exact decDataEdge_invertPin s
  | dataSample => exact decDataSample_invertPin s

/-! ## The Flash Programmer -/

theorem fcErase_invertPin (p : Nat) : fcErase p (invertPin s) = mapNext invertPin (fcErase p s) := by
  simp only [fcErase, mapNext_ite]
  rfl

theorem fcFill_invertPin (off : Nat) (w : Word) : fcFill off w (invertPin s) = mapNext invertPin (fcFill off w s) := by
  simp only [fcFill, mapNext_ite]
  rfl

theorem fcCommit_invertPin (p : Nat) : fcCommit p (invertPin s) = mapNext invertPin (fcCommit p s) := by
  simp only [fcCommit, mapNext_ite]
  rfl

theorem fcRwwEn_invertPin : fcRwwEn (invertPin s) = mapNext invertPin (fcRwwEn s) := by
  simp only [fcRwwEn, mapNext_ite]
  rfl

theorem fcRead_invertPin (a n : Nat) : fcRead a n (invertPin s) = fcRead a n s := rfl

theorem fpRead_invertPin : fpRead (invertPin s) = mapNext invertPin (fpRead s) := by
  unfold fpRead
  rw [fcRead_invertPin, invertPin_fp, invertPin_cfg]
  cases fcRead s.fp.page s.cfg.pageSize s <;> rfl

theorem fpErase_invertPin : fpErase (invertPin s) = mapNext invertPin (fpErase s) :=
  andThen_invertPin (fcErase_invertPin s _) fun _ => rfl

theorem fpEraseWait_invertPin : fpEraseWait (invertPin s) = mapNext invertPin (fpEraseWait s) := by
  simp only [fpEraseWait, mapNext_ite]
  rfl

theorem captureVector_invertPin : captureVector (invertPin s) = invertPin (captureVector s) := by
  simp only [captureVector, invertPin_ite]
  rfl

theorem fpFill_invertPin : fpFill (invertPin s) = mapNext invertPin (fpFill s) :=
  andThen_invertPin (by rw [captureVector_invertPin]; exact fcFill_invertPin _ _ _) fun _ => rfl

theorem fpFillWait_invertPin : fpFillWait (invertPin s) = mapNext invertPin (fpFillWait s) := by
  simp only [fpFillWait, mapNext_ite]
  rfl

theorem fpCommit_invertPin : fpCommit (invertPin s) = mapNext invertPin (fpCommit s) :=
  andThen_invertPin (fcCommit_invertPin s _) fun _ => rfl

theorem fpCommitWait_invertPin : fpCommitWait (invertPin s) = mapNext invertPin (fpCommitWait s) := by
  simp only [fpCommitWait, mapNext_ite]
  rfl

theorem fpRww_invertPin : fpRww (invertPin s) = mapNext invertPin (fpRww s) :=
  andThen_invertPin (fcRwwEn_invertPin s) fun _ => rfl

theorem programmerStep_invertPin : programmerStep (invertPin s) = mapNext invertPin (programmerStep s) := by
  unfold programmerStep
  rw [invertPin_fp]
  cases s.fp.phase with
  | idle => rfl
  | read => exact fpRead_invertPin s
  | erase => exact fpErase_invertPin s
  | eraseWait => exact fpEraseWait_invertPin s
  | fill => exact fpFill_invertPin s
  | fillWait => exact fpFillWait_invertPin s
  | commit => exact fpCommit_invertPin s
  | commitWait => exact fpCommitWait_invertPin s
  | rww => exact fpRww_invertPin s
  | done => rfl

/-! ## The hand-off, the commands and the completion phases -/

theorem handoff_invertPin (cause : AppCause) : handoff cause (invertPin s) = mapNext invertPin (handoff cause s) := by
  unfold handoff
  rw [fcRead_invertPin, invertPin_cfg]
  cases fcRead s.cfg.funcAddr Config.ptrBytes s <;> rfl

theorem fpStartBlock_invertPin (a : Nat) (bytes : List Byte) :
    fpStartBlock a bytes (invertPin s) = mapNext invertPin (fpStartBlock a bytes s) := by
  simp only [fpStartBlock, mapNext_ite]
  rfl

theorem execProgram_invertPin (f : Frame) : execProgram f (invertPin s) = mapNext invertPin (execProgram f s) := by
  simp only [execProgram, mapNext_ite]
  rfl

theorem execRun_invertPin : execRun (invertPin s) = mapNext invertPin (execRun s) :=
  andThen_invertPin (fpStartBlock_invertPin s _ _) fun _ => rfl

theorem exec_invertPin (i : Instr) : exec i (invertPin s) = mapNext invertPin (exec i s) := by
  cases i with
  | program f => exact execProgram_invertPin s f
  | run f => exact execRun_invertPin s
  | _ => rfl

theorem progWaitStep_invertPin : progWaitStep (invertPin s) = mapNext invertPin (progWaitStep s) := by
  simp only [progWaitStep, mapNext_ite, programmerStep_invertPin]
  rfl

theorem runWaitStep_invertPin : runWaitStep (invertPin s) = mapNext invertPin (runWaitStep s) := by
  simp only [runWaitStep, mapNext_ite, programmerStep_invertPin, ← handoff_invertPin]
  rfl

theorem eeWriteStep_invertPin : eeWriteStep (invertPin s) = mapNext invertPin (eeWriteStep s) := by
  simp only [eeWriteStep, mapNext_ite, ← handoff_invertPin]
  rfl

/-! ## The Boot Controller and the step -/

theorem fetch_invertPin : fetch (invertPin s) = fetch s := rfl

theorem listeningStep_invertPin : listeningStep (invertPin s) = mapNext invertPin (listeningStep s) := by
  unfold listeningStep
  rw [invertPin_boot_lstPhase]
  cases s.boot.lstPhase with
  | rx => exact congrArg Host.Outcome.next (decoderStep_invertPin s)
  | dispatch =>
    rw [fetch_invertPin]
    cases fetch s with
    | ok i => exact exec_invertPin s i
    | error e => rfl
  | progWait => exact progWaitStep_invertPin s
  | runWait => exact runWaitStep_invertPin s
  | eeWrite => exact eeWriteStep_invertPin s

theorem waitSchedule_invertPin : waitSchedule (invertPin s) = invertPin (waitSchedule s) := by
  rw [waitSchedule, waitEdge_invertPin, waitSchedule]
  cases waitEdge s <;> rfl

theorem waitSignalStep_invertPin : waitSignalStep (invertPin s) = mapNext invertPin (waitSignalStep s) := by
  simp only [waitSignalStep, waitSchedule_invertPin, waitEdge_invertPin, mapNext_ite, ← handoff_invertPin]
  rfl

theorem errorHangStep_invertPin : errorHangStep (invertPin s) = invertPin (errorHangStep s) := by
  simp only [errorHangStep, invertPin_ite]
  rfl

theorem controllerStep_invertPin : controllerStep (invertPin s) = mapNext invertPin (controllerStep s) := by
  unfold controllerStep
  rw [invertPin_boot_bootState]
  cases s.boot.bootState with
  | waitSignal => exact waitSignalStep_invertPin s
  | listening => exact listeningStep_invertPin s
  | errorHang => exact congrArg Host.Outcome.next (errorHangStep_invertPin s)
  | runApplication => rfl

/-- Settles O40: without a reset a step is sampling, the front and the controller's rule, and each commutes with the
inversion. -/
theorem invertedSignal : Obligations.InvertedSignal := by
  intro s hrst
  unfold step
  rw [sampleInputs_invertPin, stepRefusal_invertPin]
  cases stepRefusal (sampleInputs s) with
  | some r => rfl
  | none =>
    have hrst' : (tick (sampleInputs s)).env.inp.rst = false := hrst
    simp only [tick_invertPin, invertPin_env_inp_rst, hrst', Bool.false_eq_true, if_false]
    exact controllerStep_invertPin _

end Sys2Proof.Machine
end

section
/-! The decoder's step in each phase of LISTENING/RX (40_decoder.md R162 to R169), by the phase and the sampled pin. -/

namespace Sys2Proof.Machine

variable {s t : State}

/-! ## The state the decoder's rule acts on -/

/-- The front of an ordinary step keeps the invariant. -/
theorem Inv.begun (h : Inv s) (ho : Ordinary s) : Inv (begun s) :=
  h.sampleInputs.tick (no_cpu_write_in_span ho.1 ho.2)

theorem begun_dec_phase (s : State) : (begun s).dec.phase = s.dec.phase := by rw [begun_dec]

theorem pinChanged_begun_of_eq (h : (nextInput s).pinIn = s.dec.ref) : pinChanged (begun s) = false := by
  rw [pinChanged_begun, h, bne_self_eq_false]

theorem pinChanged_begun_of_ne (h : (nextInput s).pinIn ≠ s.dec.ref) : pinChanged (begun s) = true := by
  rw [pinChanged_begun, bne_iff_ne]
  exact h

/-- A phase that waits for an edge writes nothing without one (40_decoder.md R170). -/
theorem decoderStep_of_no_edge (hp : edgeWaiting s.dec.phase = true) (hpin : pinChanged s = false) :
    decoderStep s = s := by
  unfold decoderStep
  split
  next => rfl
  next => simp [decSyncFirst, hpin]
  next => simp [decSyncMeas, hpin]
  next hph => rw [hph] at hp; cases hp
  next => simp [decStartEdge, hpin]
  next => simp [decDataEdge, hpin]
  next hph => rw [hph] at hp; cases hp

/-- A phase that waits for the sample point writes nothing before it (40_decoder.md R165, R168). -/
theorem decoderStep_before_sample (hp : s.dec.phase = .startSample ∨ s.dec.phase = .dataSample)
    (htmr : s.dec.tmr < s.dec.delay) : decoderStep s = s := by
  have hlt : ¬ s.dec.delay ≤ s.dec.tmr := Nat.not_le.mpr htmr
  unfold decoderStep
  rcases hp with hp | hp <;> rw [hp]
  · exact if_neg hlt
  · exact if_neg hlt

theorem step_of_no_edge (ho : Ordinary s) (hr : Receiving s) (hp : edgeWaiting s.dec.phase = true)
    (hpin : (nextInput s).pinIn = s.dec.ref) : step s = .next (begun s) := by
  rw [step_of_receiving ho hr,
    decoderStep_of_no_edge (by rw [begun_dec_phase]; exact hp) (pinChanged_begun_of_eq hpin)]

theorem step_before_sample (ho : Ordinary s) (hr : Receiving s)
    (hp : s.dec.phase = .startSample ∨ s.dec.phase = .dataSample) (htmr : nextTmr s < s.dec.delay) :
    step s = .next (begun s) := by
  rw [step_of_receiving ho hr,
    decoderStep_before_sample (by rw [begun_dec_phase]; exact hp) (by rw [begun_dec]; exact htmr)]

/-! ## What each measuring and each storing step writes -/

theorem decSyncMeas_interval (hpin : pinChanged s = true) (hn : s.dec.n + 1#5 ≠ 16#5) :
    decSyncMeas s = { s with
      dec.tmr := 0
      dec.ref := s.env.inp.pinIn
      dec.acc := nextAcc s s.dec.tmr
      dec.n := s.dec.n + 1#5 } :=
  (if_pos hpin).trans (if_neg hn)

theorem decSyncMeas_sixteenth (hpin : pinChanged s = true) (hn : s.dec.n + 1#5 = 16#5) :
    decSyncMeas s = { s with
      dec.tmr := 0
      dec.ref := s.env.inp.pinIn
      dec.acc := nextAcc s s.dec.tmr
      dec.n := s.dec.n + 1#5
      dec.delay := sampleDelay (nextAcc s s.dec.tmr)
      dec.startCnt := 0#16
      dec.phase := .startSample } :=
  (if_pos hpin).trans (if_pos hn)

/-- A bit that is not the frame's last (40_decoder.md R168). -/
theorem decDataSample_more (htmr : s.dec.delay ≤ s.dec.tmr) (hi : s.dec.bitIdx + 1 ≠ s.cfg.frameBits) :
    decDataSample s = { s with
      frame := (storeBit s s.dec.bitIdx (pinChanged s)).frame
      dec.ref := s.env.inp.pinIn
      dec.bitIdx := s.dec.bitIdx + 1
      dec.phase := .dataEdge } :=
  (if_pos htmr).trans (if_neg hi)

/-- The frame's last bit (40_decoder.md R169). -/
theorem decDataSample_last (htmr : s.dec.delay ≤ s.dec.tmr) (hi : s.dec.bitIdx + 1 = s.cfg.frameBits)
    (hok : s.dec.ok = true) :
    decDataSample s = { s with
      frame := (storeBit s s.dec.bitIdx (pinChanged s)).frame
      dec.ref := s.env.inp.pinIn
      dec.bitIdx := s.dec.bitIdx + 1
      dec.phase := .idle
      dec.ok := true
      out.frameOk := true
      boot.lstPhase := .dispatch } :=
  (if_pos htmr).trans ((if_pos hi).trans (if_pos hok))

/-! ## The obligations -/

/-- Settles O32: nested divisions compose, and eight times the largest timer value bounds the accumulator. -/
theorem sampleDelayFits : Obligations.SampleDelayFits := fun c acc =>
  ⟨rfl, sampleDelay_eq acc, fun h => ⟨by unfold sampleDelay; omega, sampleDelay_lt h⟩⟩

/-- Settles O30: the decoder's rule is that of SYNC_FIRST. -/
theorem syncFirst : Obligations.SyncFirst := by
  intro s ho hr hp
  split_ifs with hpin
  · exact step_of_no_edge ho hr (by rw [hp]; rfl) hpin
  · rw [step_of_receiving ho hr, decoderStep, begun_dec_phase, hp]
    exact congrArg _ (if_pos (pinChanged_begun_of_ne hpin))

/-- Settles O33: before the sample delay nothing is written, and then the level decides. -/
theorem startSample : Obligations.StartSample := by
  intro s ho hr hp
  split_ifs with htmr hpin
  · exact step_before_sample ho hr (.inl hp) htmr
  all_goals
    have hat : (begun s).dec.delay ≤ (begun s).dec.tmr := by rw [begun_dec]; exact Nat.not_lt.mp htmr
    rw [step_of_receiving ho hr, decoderStep, begun_dec_phase, hp]
  · exact congrArg _ ((if_pos hat).trans (if_neg (Bool.not_eq_true _ ▸ pinChanged_begun_of_eq hpin)))
  · exact congrArg _ ((if_pos hat).trans (if_pos (pinChanged_begun_of_ne hpin)))

/-- Settles O34: each of the two phases has one edge to wait for. -/
theorem cellEdge : Obligations.CellEdge := by
  intro s ho hr
  refine ⟨fun hp => ?startEdge, fun hp => ?dataEdge⟩
  case startEdge =>
    split_ifs with hpin
    · exact step_of_no_edge ho hr (by rw [hp]; rfl) hpin
    · have hcnt : BitVec.ofNat 16 (s.dec.startCnt.toNat + 1) = (begun s).dec.startCnt + 1#16 := by
        rw [begun_dec, BitVec.ofNat_add, BitVec.ofNat_toNat, BitVec.setWidth_eq]
      rw [step_of_receiving ho hr, decoderStep, begun_dec_phase, hp, hcnt]
      exact congrArg _ (if_pos (pinChanged_begun_of_ne hpin))
  case dataEdge =>
    split_ifs with hpin
    · exact step_of_no_edge ho hr (by rw [hp]; rfl) hpin
    · exact (step_dataEdge ho hr hp).trans (congrArg _ (decDataEdge_of_edge (pinChanged_begun_of_ne hpin)))

/-- Under the invariant the sum of the last eight intervals does not wrap (40_decoder.md R163). -/
theorem Inv.nextAcc_eq (h : Inv s) (hp : s.dec.phase = .syncMeas) :
    nextAcc s s.dec.tmr = if 8 ≤ s.dec.n.toNat then s.dec.acc + s.dec.tmr else s.dec.acc := by
  have hsum := h.summing hp
  have hn := h.measuring hp
  have htmr := h.ranges.tmr
  have hmul : (s.dec.n.toNat - 8) * (2 ^ s.cfg.timerW - 1) ≤ 7 * (2 ^ s.cfg.timerW - 1) :=
    Nat.mul_le_mul_right _ (by omega)
  have hfit : s.dec.acc + s.dec.tmr < 2 ^ s.cfg.accW := by
    rw [Config.accW, Nat.pow_add]
    omega
  rw [nextAcc, Nat.mod_eq_of_lt hfit]

/-- Settles O31: an edge ends an interval, which counts from the ninth on; the sum stays within eight of them. -/
theorem syncMeas : Obligations.SyncMeas := by
  intro s h ho hr hp
  refine ⟨step_of_no_edge ho hr (by rw [hp]; rfl), fun hpin => ?edge⟩
  have hb : Inv (begun s) := h.begun ho
  have hpb : (begun s).dec.phase = .syncMeas := by rw [begun_dec_phase, hp]
  have hn16 := h.measuring hp
  have hacc : nextAcc (begun s) (begun s).dec.tmr =
      if 8 ≤ s.dec.n.toNat then s.dec.acc + nextTmr s else s.dec.acc := by rw [hb.nextAcc_eq hpb, begun_dec]
  have hle : nextAcc (begun s) (begun s).dec.tmr ≤ 8 * (2 ^ s.cfg.timerW - 1) := by
    have hmul := hb.nextAcc_le hpb
    rw [begun_cfg] at hmul
    exact hmul.trans (Nat.mul_le_mul_right _ (by rw [begun_dec]; show s.dec.n.toNat + 1 - 8 ≤ 8; omega))
  have hn : ((begun s).dec.n + 1#5).toNat = s.dec.n.toNat + 1 := by rw [begun_dec]; bv_omega
  have hedge := pinChanged_begun_of_ne hpin
  rw [step_of_receiving ho hr, decoderStep, hpb]
  by_cases h16 : s.dec.n.toNat + 1 = 16
  · refine ⟨_, congrArg _ (decSyncMeas_sixteenth hedge (BitVec.eq_of_toNat_eq (by rw [hn, h16]; rfl))), hacc, hle, hn,
      fun _ => ?_, absurd h16⟩
    rw [sampleDelay_eq]
    rfl
  · exact ⟨_, congrArg _ (decSyncMeas_interval hedge fun he => h16 (by rw [← hn, he]; rfl)), hacc, hle, hn,
      fun hlast => absurd hlast h16, fun _ => rfl⟩

/-- Settles O35: the bit is stored, and the frame is complete or the next cell is awaited. -/
theorem dataSample : Obligations.DataSample := by
  intro s h ho hr hp
  refine ⟨step_before_sample ho hr (.inr hp), fun htmr => ?at_sample⟩
  have hat : (begun s).dec.delay ≤ (begun s).dec.tmr := by rw [begun_dec]; exact htmr
  have hi : (begun s).dec.bitIdx = s.dec.bitIdx := by rw [begun_dec]
  refine ⟨_, step_dataSample ho hr hp, fun a k hk => ?bits, fun hlast => ?last, fun hmore => ?more⟩
  case bits =>
    obtain ⟨-, -, hframe⟩ := decDataSample_at hat
    rw [hframe, getLsbD_read_storeBit _ _ _ _ hk, pinChanged_begun, begun_dec, begun_frame]
  case last =>
    rw [decDataSample_last hat (by rw [hi, begun_cfg, hlast]) (by rw [begun_dec]; exact h.decOk), hi]
    rfl
  case more =>
    rw [decDataSample_more hat (by rw [hi, begun_cfg]; exact hmore), hi]
    rfl

end Sys2Proof.Machine
end

section
/-! A constant pin in an edge-waiting phase (40_decoder.md R170): one step moves the timer and the step number, and so
does every further one. -/

namespace Sys2Proof.Machine

variable {s t : State}

/-- The state after `n` steps in which only the timer and the step number moved. -/
def afterSilence (s : State) (n : Nat) : State :=
  { s with dec.tmr := (s.dec.tmr + n) % 2 ^ s.cfg.timerW, stepNo := s.stepNo + n }

theorem afterSilence_zero (h : s.dec.tmr < 2 ^ s.cfg.timerW) : afterSilence s 0 = s := by
  rw [afterSilence, Nat.add_zero, Nat.mod_eq_of_lt h]
  rfl

theorem afterSilence_succ (s : State) (n : Nat) : afterSilence (afterSilence s n) 1 = afterSilence s (n + 1) := by
  simp only [afterSilence, Nat.mod_add_mod, Nat.add_assoc]

/-- A block that hangs on a silent line: what every step keeps of the hypotheses of R170. -/
structure Silent (s : State) : Prop where
  cfg : s.cfg.wf = true
  quiet : Quiet s
  receiving : Receiving s
  waiting : edgeWaiting s.dec.phase = true
  level : s.env.inp.pinIn = s.dec.ref
  idle : s.fc.busyLeft = 0
  eeWe : s.out.eeWe = false
  frameOk : s.out.frameOk = false

theorem Silent.afterSilence (h : Silent s) (n : Nat) : Silent (afterSilence s n) := { h with }

/-- On a silent line the front of a step moves the timer and the step number only. -/
theorem Silent.begun_eq (h : Silent s) : begun s = Machine.afterSilence s 1 := by
  obtain ⟨hlist, -, hie, -⟩ := h.quiet
  have hsample : sampleInputs s = s := by rw [sampleInputs, hlist]
  have hbusy : s.fc.busyLeft - 1 = s.fc.busyLeft := by rw [h.idle]
  have hout : { s.out with eeWe := false, frameOk := false } = s.out := by
    rw [Out.mk.injEq]
    exact ⟨h.eeWe.symm, rfl, rfl, h.frameOk.symm⟩
  rw [begun, hsample, tick, hbusy, hout, hie]
  rfl

theorem Silent.step (h : Silent s) : step s = .next (Machine.afterSilence s 1) := by
  obtain ⟨hlist, hrst, hie, hirq⟩ := h.quiet
  have hsample : sampleInputs s = s := by rw [sampleInputs, hlist]
  have ho : Ordinary s := by simp [Ordinary, nextInput, hsample, stepRefusal, h.cfg, hrst, hirq, hie]
  rw [step_of_no_edge ho h.receiving h.waiting (by rw [nextInput, hsample, h.level]), h.begun_eq]

theorem Silent.runSteps (h : Silent s) (m k : Nat) :
    runSteps m (Machine.afterSilence s k) = .next (Machine.afterSilence s (k + m)) := by
  induction m generalizing k with
  | zero => rfl
  | succ m ih =>
    rw [Machine.runSteps, (h.afterSilence k).step, afterSilence_succ, andThen, ih, Nat.add_right_comm, Nat.add_assoc]

/-- Settles O36: each step moves the timer and the step number once more. -/
theorem silentLineHangs : Obligations.SilentLineHangs := by
  intro s n hw hq hr hp hpin hbusy htmr hee hok
  have hrun := Silent.runSteps ⟨hw, hq, hr, hp, hpin, hbusy, hee, hok⟩ n 0
  rwa [Nat.zero_add, afterSilence_zero htmr] at hrun

end Sys2Proof.Machine
end

section
/-! The reference level in the edge-waiting phases (40_decoder.md R171): the decoder enters and keeps them with the
level just sampled, a start of a reception captures it, and no other rule touches the decoder while it runs. -/

namespace Sys2Proof.Machine

variable {s t : State}

theorem RefIsLastPin.of_idle (h : t.dec.phase = .idle) : RefIsLastPin t := by
  intro hp
  rw [h] at hp
  cases hp

/-- Without an edge the level is the reference. -/
theorem ref_eq_pin_of_no_edge (h : ¬ pinChanged s = true) : s.dec.ref = s.env.inp.pinIn :=
  (bne_eq_false_iff_eq.mp (Bool.not_eq_true _ ▸ h)).symm

theorem frameComplete_dec_phase (s : State) : (frameComplete s).dec.phase = .idle := by
  unfold frameComplete
  simp only
  split <;> rfl

/-- The decoder waits for an edge either with the level it has just captured or with a level that did not change. -/
theorem RefIsLastPin.decoderStep (s : State) : RefIsLastPin (decoderStep s) := by
  unfold Machine.decoderStep
  split
  next hp => exact .of_idle hp
  next =>
    unfold decSyncFirst
    split_ifs with hedge
    · exact fun _ => rfl
    · exact fun _ => ref_eq_pin_of_no_edge hedge
  next =>
    unfold decSyncMeas
    simp only
    split_ifs with hedge
    · exact nofun
    · exact fun _ => rfl
    · exact fun _ => ref_eq_pin_of_no_edge hedge
  next hp =>
    unfold decStartSample
    split_ifs with hat hedge
    · exact fun _ => rfl
    · exact fun _ => ref_eq_pin_of_no_edge hedge
    · simp [RefIsLastPin, hp, edgeWaiting]
  next =>
    unfold decStartEdge
    split_ifs with hedge
    · exact nofun
    · exact fun _ => ref_eq_pin_of_no_edge hedge
  next =>
    unfold decDataEdge
    split_ifs with hedge
    · exact nofun
    · exact fun _ => ref_eq_pin_of_no_edge hedge
  next hp =>
    unfold decDataSample
    simp only
    split_ifs
    · exact .of_idle (frameComplete_dec_phase _)
    · exact fun _ => rfl
    · simp [RefIsLastPin, hp, edgeWaiting]

theorem RefIsLastPin.handoff {cause : AppCause} (h : handoff cause s = .next t) : RefIsLastPin t := by
  obtain ⟨-, -, -, rfl⟩ := handoff_next.mp h
  exact .of_idle rfl

/-- An idle decoder that the programmer leaves alone. -/
theorem RefIsLastPin.programmerStep (hs : s.dec.phase = .idle) (h : programmerStep s = .next t) : RefIsLastPin t :=
  .of_idle (by rw [(programmerStep_writes h).1, hs])

theorem RefIsLastPin.waitSignalStep (hs : s.dec.phase = .idle) (h : waitSignalStep s = .next t) : RefIsLastPin t := by
  rcases waitSignalStep_next h with ht | ⟨-, rfl | ⟨-, rfl⟩ | rfl⟩
  · exact .handoff ht
  · exact fun _ => rfl
  · exact .of_idle hs
  · exact .of_idle hs

theorem RefIsLastPin.exec {i : Instr} (hs : s.dec.phase = .idle) (h : exec i s = .next t) : RefIsLastPin t := by
  rcases exec_next h with rfl | ⟨f, -, rfl⟩ | rfl | ⟨f, ht⟩
  · exact fun _ => rfl
  · exact .of_idle hs
  · exact .of_idle hs
  · cases ht
    exact .of_idle hs

theorem RefIsLastPin.eeWriteStep (hs : s.dec.phase = .idle) (h : eeWriteStep s = .next t) : RefIsLastPin t := by
  unfold Machine.eeWriteStep at h
  split at h
  · cases h
    exact .of_idle hs
  · exact .handoff h

theorem RefIsLastPin.progWaitStep (hs : s.dec.phase = .idle) (h : progWaitStep s = .next t) : RefIsLastPin t := by
  rcases progWaitStep_next h with ⟨-, rfl⟩ | ht
  · exact fun _ => rfl
  · exact .programmerStep hs ht

theorem RefIsLastPin.runWaitStep (hs : s.dec.phase = .idle) (h : runWaitStep s = .next t) : RefIsLastPin t := by
  rcases runWaitStep_next h with ⟨-, rfl⟩ | ht
  · exact .of_idle rfl
  · exact .programmerStep hs ht

/-- The decoder is idle outside LISTENING/RX. -/
theorem Inv.dec_idle (h : Inv s) (hn : ¬ Receiving s) : s.dec.phase = .idle :=
  not_not.mp (mt h.decoding.mp hn)

/-- The decoder acts in LISTENING/RX; elsewhere it is idle, and the rule leaves it so or starts a reception. -/
theorem RefIsLastPin.controllerStep (h : Inv s) (ht : controllerStep s = .next t) : RefIsLastPin t := by
  by_cases hr : Receiving s
  · simp only [Machine.controllerStep, hr.1, listeningStep, hr.2] at ht
    cases ht
    exact .decoderStep s
  · have hs := h.dec_idle hr
    unfold Machine.controllerStep at ht
    split at ht
    next => exact .waitSignalStep hs ht
    next hb =>
      unfold listeningStep at ht
      split at ht
      next hl => exact absurd ⟨hb, hl⟩ hr
      next =>
        split at ht
        next => exact .exec hs ht
        next => cases ht
      next => exact .progWaitStep hs ht
      next => exact .runWaitStep hs ht
      next => exact .eeWriteStep hs ht
    next hb => exact absurd hb h.noHang
    next => cases ht; exact .of_idle hs

theorem RefIsLastPin.resetStep (h : resetStep s = .next t) : RefIsLastPin t := by
  unfold Machine.resetStep at h
  split at h
  · exact .handoff h
  · cases h
    exact .of_idle rfl

/-- Settles O37: a reset leaves the decoder idle, and each rule keeps the reference level at the level it samples. -/
theorem edgeIsTransition : Obligations.EdgeIsTransition := by
  intro s t h ht
  obtain ⟨hok, ⟨-, ht⟩ | ⟨hrst, ht⟩⟩ := step_next.mp ht
  · exact .resetStep ht
  · exact .controllerStep (h.begun ⟨hok, hrst⟩) ht

end Sys2Proof.Machine
end

section
/-! A reception in progress (40_decoder.md, 30_encoding.md R123, R124): runs of steps that the decoder makes while pin
levels are listed, and the steps in which it only waits. -/

namespace Sys2Proof.Machine

variable {s t u : State} {b : Bool} {pre w : List Bool} {m n : Nat}

/-! ## Runs -/

theorem runSteps_add (m n : Nat) (s : State) : runSteps (m + n) s = andThen (runSteps m s) (runSteps n) := by
  induction m generalizing s with
  | zero => rw [Nat.zero_add]; rfl
  | succ m ih =>
    rw [Nat.add_right_comm, runSteps, runSteps]
    cases step s with
    | next t => exact ih t
    | fault e => rfl
    | refused r => rfl

/-- `n` steps lead from `s` to `t` and leave FLASH as it is. -/
structure Reaches (n : Nat) (s t : State) : Prop where
  run : runSteps n s = .next t
  cfg : t.cfg = s.cfg
  flash : t.fc.flash = s.fc.flash

theorem Reaches.refl (s : State) : Reaches 0 s s := ⟨rfl, rfl, rfl⟩

theorem Reaches.trans {k : Nat} (h : Reaches m s t) (h' : Reaches n t u) (hk : k = m + n) : Reaches k s u :=
  ⟨by rw [hk, runSteps_add, h.run]; exact h'.run, h'.cfg.trans h.cfg, h'.flash.trans h.flash⟩

theorem frameComplete_cfg_env (s : State) : (frameComplete s).cfg = s.cfg ∧ (frameComplete s).env = s.env := by
  unfold frameComplete
  simp only
  split <;> exact ⟨rfl, rfl⟩

/-- The decoder writes neither its configuration nor its inputs. -/
theorem decoderStep_cfg_env (s : State) : (decoderStep s).cfg = s.cfg ∧ (decoderStep s).env = s.env := by
  unfold decoderStep
  split
  next => exact ⟨rfl, rfl⟩
  next => unfold decSyncFirst; split <;> exact ⟨rfl, rfl⟩
  next => unfold decSyncMeas; simp only; split_ifs <;> exact ⟨rfl, rfl⟩
  next => unfold decStartSample; split_ifs <;> exact ⟨rfl, rfl⟩
  next => unfold decStartEdge; split <;> exact ⟨rfl, rfl⟩
  next => unfold decDataEdge; split <;> exact ⟨rfl, rfl⟩
  next =>
    unfold decDataSample
    simp only
    split_ifs
    · exact frameComplete_cfg_env _
    · exact ⟨rfl, rfl⟩
    · exact ⟨rfl, rfl⟩

theorem Reaches.of_receiving (ho : Ordinary s) (hr : Receiving s) (ht : step s = .next t) : Reaches 1 s t := by
  obtain rfl : decoderStep (begun s) = t := Host.Outcome.next.inj ((step_of_receiving ho hr).symm.trans ht)
  refine ⟨by rw [runSteps, ht]; rfl, ?_, ?_⟩
  · rw [(decoderStep_cfg_env _).1, begun_cfg]
  · rw [decoderStep_fc, begun_fc]

/-! ## Listening to a trace -/

/-- A reception under way: the decoder acts in a calm environment, and `w` are the levels to come. -/
structure Hears (s : State) (w : List Bool) : Prop where
  inv : Inv s
  calm : CalmInputs s
  receiving : Receiving s
  pins : s.env.inputs.map (·.pinIn) = w

theorem Hears.ordinary (h : Hears s (b :: w)) : Ordinary s := ordinary_of_calm h.inv h.calm h.receiving h.pins

theorem Hears.pin (h : Hears s (b :: w)) : (nextInput s).pinIn = b := nextInput_pinIn h.pins

theorem Hears.reaches (h : Hears s (b :: w)) (ht : step s = .next t) : Reaches 1 s t :=
  .of_receiving h.ordinary h.receiving ht

/-- A step that does not complete the frame goes on with the reception. -/
theorem Hears.goes_on (h : Hears s (b :: w)) (ht : step s = .next t) (hp : t.dec.phase ≠ .idle) : Hears t w := by
  have hinv := stepKeepsInv _ _ h.inv ht
  obtain rfl : decoderStep (begun s) = t :=
    Host.Outcome.next.inj ((step_of_receiving h.ordinary h.receiving).symm.trans ht)
  have henv := (decoderStep_cfg_env (begun s)).2
  refine ⟨hinv, ?_, hinv.decoding.mp hp, by rw [henv]; exact pins_begun h.pins⟩
  rw [CalmInputs, henv]
  exact h.calm.begun

/-! ## Waiting -/

/-- The decoder waits through the levels `w`: for an edge, and none of them is one, or for a sample point that lies
behind them. -/
def WaitsThrough (d : Dec) (w : List Bool) : Prop :=
  (edgeWaiting d.phase = true ∧ ∀ b ∈ w, b = d.ref) ∨
  ((d.phase = .startSample ∨ d.phase = .dataSample) ∧ d.tmr + w.length < d.delay)

theorem WaitsThrough.phase_ne_idle {d : Dec} (h : WaitsThrough d w) : d.phase ≠ .idle := by
  rintro hp
  rcases h with ⟨hw, -⟩ | ⟨hw | hw, -⟩ <;> rw [hp] at hw <;> cases hw

/-- The timer does not wrap before a sample point. -/
theorem Inv.nextTmr_of_lt_delay (h : Inv s) (hlt : s.dec.tmr + 1 < s.dec.delay) : nextTmr s = s.dec.tmr + 1 :=
  Nat.mod_eq_of_lt (hlt.trans h.ranges.delay)

theorem Hears.step_waiting (h : Hears s (b :: w)) (hw : WaitsThrough s.dec (b :: pre)) :
    step s = .next (begun s) ∧ WaitsThrough (begun s).dec pre := by
  rw [begun_dec]
  obtain ⟨hp, hall⟩ | ⟨hp, hlt⟩ := hw
  · exact ⟨step_of_no_edge h.ordinary h.receiving hp (h.pin.trans (hall b (by simp))),
      .inl ⟨hp, fun c hc => hall c (List.mem_cons_of_mem _ hc)⟩⟩
  · rw [List.length_cons] at hlt
    have htmr := h.inv.nextTmr_of_lt_delay (by omega)
    exact ⟨step_before_sample h.ordinary h.receiving hp (by omega), .inr ⟨hp, by simp only; omega⟩⟩

/-- Through such levels only the timer of the decoder moves. -/
theorem Hears.wait (h : Hears s (pre ++ w)) (hw : WaitsThrough s.dec pre) :
    ∃ t, Reaches pre.length s t ∧ Hears t w ∧ t.frame = s.frame ∧
      t.dec = { s.dec with tmr := (s.dec.tmr + pre.length) % 2 ^ s.cfg.timerW } := by
  induction pre generalizing s with
  | nil =>
    refine ⟨s, .refl s, h, rfl, ?_⟩
    rw [List.length_nil, Nat.add_zero, Nat.mod_eq_of_lt h.inv.ranges.tmr]
  | cons b pre ih =>
    obtain ⟨hstep, hw'⟩ := h.step_waiting hw
    have hhears := h.goes_on hstep (by rw [begun_dec]; exact hw.phase_ne_idle)
    obtain ⟨t, hreach, ht, hframe, hdec⟩ := ih hhears hw'
    refine ⟨t, (h.reaches hstep).trans hreach (Nat.add_comm ..), ht, by rw [hframe, begun_frame], ?_⟩
    rw [hdec, begun_dec, begun_cfg, nextTmr, List.length_cons]
    simp only [Nat.mod_add_mod, Nat.add_assoc, Nat.add_comm 1]

end Sys2Proof.Machine
end

section
/-! The cells of the nominal transmitter (30_encoding.md R123) as the decoder hears them: from the first step of one
cell to the first step of the next. -/

namespace Sys2Proof.Machine

variable {s t : State} {p m : Nat} {ph : DecPhase} {b : Bool} {bs w done : List Bool}

/-! ## The levels of a cell -/

/-- The levels of a cell about the sample point `3p / 4`: the level after the edge, the levels before the sample point,
and from there on the level that the cell leaves. -/
theorem cell_eq (hp : 2 ≤ p) (l b : Bool) : ∃ pre : List Bool, pre.length + 1 = 3 * p / 4 ∧
    cell p l b = (!l) :: pre ++ List.replicate (p - 3 * p / 4) (levelAfter l b) := by
  cases b with
  | false =>
    refine ⟨List.replicate (3 * p / 4 - 1) (!l), by rw [List.length_replicate]; omega, ?_⟩
    rw [← List.replicate_succ, levelAfter, if_neg Bool.false_ne_true, List.replicate_append_replicate, cell,
      if_neg Bool.false_ne_true]
    congr 1
    omega
  | true =>
    refine ⟨List.replicate (p / 2 - 1) (!l) ++ List.replicate (3 * p / 4 - p / 2) l,
      by rw [List.length_append, List.length_replicate, List.length_replicate]; omega, ?_⟩
    rw [← List.cons_append, ← List.replicate_succ, List.append_assoc, levelAfter, if_pos rfl,
      List.replicate_append_replicate, cell, if_pos rfl]
    congr 2 <;> omega

/-- A cell begins with a transition (30_encoding.md R120). -/
theorem cells_cons (hp : 2 ≤ p) (l b : Bool) (bs : List Bool) :
    cells p l (b :: bs) = (!l) :: (cells p l (b :: bs)).tail := by
  obtain ⟨pre, -, hcell⟩ := cell_eq hp l b
  rw [cells, hcell]
  rfl

/-! ## From cell to cell -/

/-- In the first step of the first of the cells `bs`, the decoder has seen its edge and is in phase `ph`. -/
structure InCell (p : Nat) (s : State) (ph : DecPhase) (bs : List Bool) : Prop where
  hears : Hears s (cells p (!s.dec.ref) bs).tail
  phase : s.dec.phase = ph
  tmr : s.dec.tmr = 0

/-- A step that hears the first transition of the next cell. -/
theorem Hears.inCell (hp : 2 ≤ p) (h : Hears s (cells p s.dec.ref (b :: bs))) (ht : step s = .next t)
    (href : t.dec.ref = !s.dec.ref) (hph : t.dec.phase = ph) (hidle : ph ≠ .idle) (htmr : t.dec.tmr = 0) :
    Reaches 1 s t ∧ InCell p t ph (b :: bs) := by
  rw [cells_cons hp] at h
  refine ⟨h.reaches ht, ?_, hph, htmr⟩
  rw [href, Bool.not_not]
  exact h.goes_on ht (hph ▸ hidle)

theorem Hears.transition (hp : 2 ≤ p) (h : Hears s (cells p s.dec.ref (b :: bs))) :
    Ordinary s ∧ (nextInput s).pinIn = !s.dec.ref := by
  rw [cells_cons hp] at h
  exact ⟨h.ordinary, h.pin⟩

/-- Waiting at a steady level for the next cell. -/
theorem Hears.wait_steady (h : Hears s (List.replicate m s.dec.ref ++ w)) (he : edgeWaiting s.dec.phase = true) :
    ∃ t, Reaches m s t ∧ Hears t w ∧ t.frame = s.frame ∧
      t.dec = { s.dec with tmr := (s.dec.tmr + m) % 2 ^ s.cfg.timerW } := by
  simpa using h.wait (.inl ⟨he, fun b hb => List.eq_of_mem_replicate hb⟩)

/-! ## Synchronisation (40_decoder.md R162, R163) -/

/-- The first transition after an idle line. -/
theorem Hears.syncFirst_inCell (hp : 2 ≤ p) (h : Hears s (List.replicate m s.dec.ref ++ cells p s.dec.ref (b :: bs)))
    (hph : s.dec.phase = .syncFirst) :
    ∃ t, Reaches (m + 1) s t ∧ InCell p t .syncMeas (b :: bs) ∧ t.dec.n = 0#5 ∧ t.dec.acc = 0 := by
  obtain ⟨u, hwait, hu, -, hdec⟩ := h.wait_steady (by rw [hph]; rfl)
  have href : u.dec.ref = s.dec.ref := by rw [hdec]
  rw [← href] at hu
  obtain ⟨ho, hpin⟩ := hu.transition hp
  have hstep := syncFirst u ho hu.receiving (by rw [hdec]; exact hph)
  rw [if_neg (by rw [hpin]; exact Bool.not_ne_self _)] at hstep
  obtain ⟨hreach, hcell⟩ := hu.inCell hp hstep hpin rfl nofun rfl
  exact ⟨_, hwait.trans hreach rfl, hcell, rfl, rfl⟩

theorem tail_cells_false (hp : 2 ≤ p) (l : Bool) (bs : List Bool) :
    (cells p l (false :: bs)).tail = List.replicate (p - 1) (!l) ++ cells p (!l) bs := by
  obtain ⟨k, rfl⟩ : ∃ k, p = k + 1 := ⟨p - 1, by omega⟩
  rfl

/-- One measured interval: a cell of the preamble up to the next transition takes `p` ticks. -/
theorem InCell.measure (hp : 2 ≤ p) (hfit : p < 2 ^ s.cfg.timerW) (h : InCell p s .syncMeas (false :: b :: bs)) :
    ∃ t, Reaches p s t ∧ t.dec.n.toNat = s.dec.n.toNat + 1 ∧
      t.dec.acc = (if 8 ≤ s.dec.n.toNat then s.dec.acc + p else s.dec.acc) ∧
      InCell p t (if s.dec.n.toNat + 1 = 16 then .startSample else .syncMeas) (b :: bs) := by
  have hhears := h.hears
  rw [tail_cells_false hp, Bool.not_not] at hhears
  obtain ⟨u, hwait, hu, -, hdec⟩ := hhears.wait_steady (by rw [h.phase]; rfl)
  have href : u.dec.ref = s.dec.ref := by rw [hdec]
  have hn : u.dec.n = s.dec.n := by rw [hdec]
  have hacc : u.dec.acc = s.dec.acc := by rw [hdec]
  have hph : u.dec.phase = .syncMeas := by rw [hdec]; exact h.phase
  have htmr : nextTmr u = p := by
    rw [nextTmr, hwait.cfg, hdec]
    simp only [h.tmr, Nat.zero_add, Nat.mod_add_mod]
    rw [Nat.sub_add_cancel (by omega), Nat.mod_eq_of_lt hfit]
  rw [← href] at hu
  obtain ⟨ho, hpin⟩ := hu.transition hp
  obtain ⟨-, hedge⟩ := syncMeas u hu.inv ho hu.receiving hph
  obtain ⟨t, hstep, htacc, -, htn, hlast, hmore⟩ := hedge (by rw [hpin]; exact Bool.not_ne_self _)
  rw [hn] at htn hlast hmore
  obtain ⟨htref, httmr, htph⟩ : t.dec.ref = !u.dec.ref ∧ t.dec.tmr = 0 ∧
      t.dec.phase = if s.dec.n.toNat + 1 = 16 then .startSample else .syncMeas := by
    split_ifs with h16
    · rw [hlast h16]
      exact ⟨hpin, rfl, rfl⟩
    · rw [hmore h16]
      exact ⟨hpin, rfl, (begun_dec_phase u).trans hph⟩
  obtain ⟨hreach, hcell⟩ := hu.inCell hp hstep htref htph (by split_ifs <;> exact nofun) httmr
  exact ⟨t, hwait.trans hreach (by omega), htn, by rw [htacc, hn, hacc, htmr], hcell⟩

/-- The sixteen intervals of the synchronisation: the last eight of them sum to `8 * p`. -/
theorem InCell.measure_all (hp : 2 ≤ p) (hfit : p < 2 ^ s.cfg.timerW)
    (h : InCell p s .syncMeas (false :: (List.replicate m false ++ b :: bs))) (hn : s.dec.n.toNat + m = 15)
    (hacc : s.dec.acc = (s.dec.n.toNat - 8) * p) :
    ∃ t, Reaches ((m + 1) * p) s t ∧ InCell p t .startSample (b :: bs) ∧ t.dec.acc = 8 * p := by
  induction m generalizing s with
  | zero =>
    obtain ⟨t, hreach, -, htacc, hcell⟩ := h.measure hp hfit
    have h15 : s.dec.n.toNat = 15 := hn
    rw [hacc, h15] at htacc
    rw [h15] at hcell
    exact ⟨t, by rwa [Nat.zero_add, Nat.one_mul], hcell, by rw [htacc, if_pos (by omega)]; omega⟩
  | succ m ih =>
    obtain ⟨t, hreach, htn, htacc, hcell⟩ := h.measure hp hfit
    rw [if_neg (by omega)] at hcell
    obtain ⟨u, hreach', hu⟩ := ih (by rwa [hreach.cfg]) hcell (by omega) (by
      rw [htacc, htn, hacc]
      split_ifs with h8
      · rw [Nat.sub_add_comm h8, Nat.add_mul, Nat.one_mul]
      · rw [Nat.sub_eq_zero_of_le (by omega), Nat.sub_eq_zero_of_le (by omega)])
    exact ⟨u, hreach.trans hreach' (by rw [Nat.add_mul (m + 1), Nat.one_mul, Nat.add_comm]), hu⟩

/-! ## The sample point -/

/-- The levels from the sample point of a cell on, after a line at level `l`: the level that the cell leaves, up to the
cells after it. -/
def levelsFromSample (p : Nat) (l b : Bool) (bs : List Bool) : List Bool :=
  levelAfter l b :: (List.replicate (p - 3 * p / 4 - 1) (levelAfter l b) ++ cells p (levelAfter l b) bs)

/-- The sample delay of the estimate `8 * p` (40_decoder.md R164). -/
theorem InCell.delay_eq (h : InCell p s ph bs) (hph : ph = .startSample ∨ ph = .dataSample)
    (hacc : s.dec.acc = 8 * p) : s.dec.delay = 3 * p / 4 := by
  rw [h.hears.inv.estimate (by rw [h.phase]; rcases hph with rfl | rfl <;> rfl), hacc]
  omega

/-- From the first step of a cell to its sample point nothing but the timer moves, and from there on the line is at the
level that the cell leaves. -/
theorem InCell.sample_point (hp : 2 ≤ p) (h : InCell p s ph (b :: bs)) (hph : ph = .startSample ∨ ph = .dataSample)
    (hacc : s.dec.acc = 8 * p) :
    ∃ t, Reaches (3 * p / 4 - 1) s t ∧ t.frame = s.frame ∧ t.dec = { s.dec with tmr := 3 * p / 4 - 1 } ∧
      nextTmr t = t.dec.delay ∧ Hears t (levelsFromSample p (!s.dec.ref) b bs) := by
  have hdelay := h.delay_eq hph hacc
  have hrange := h.hears.inv.ranges.delay
  have hhears := h.hears
  obtain ⟨pre, hlen, hcell⟩ := cell_eq hp (!s.dec.ref) b
  rw [cells, hcell, List.cons_append, List.cons_append, List.tail_cons, List.append_assoc] at hhears
  obtain ⟨t, hreach, ht, hframe, hdec⟩ := hhears.wait (.inr ⟨by rw [h.phase]; exact hph, by rw [h.tmr]; omega⟩)
  rw [h.tmr, Nat.zero_add, Nat.mod_eq_of_lt (by omega), show pre.length = 3 * p / 4 - 1 by omega] at hdec
  refine ⟨t, by rwa [show 3 * p / 4 - 1 = pre.length by omega], hframe, hdec, ?_, ?_⟩
  · rw [nextTmr, hreach.cfg, hdec]
    show (3 * p / 4 - 1 + 1) % 2 ^ s.cfg.timerW = s.dec.delay
    rw [Nat.mod_eq_of_lt (by omega)]
    omega
  · rwa [levelsFromSample, ← List.cons_append, ← List.replicate_succ, Nat.sub_add_cancel (by omega)]

/-- After a sample the line is steady up to the transition of the next cell (40_decoder.md R166, R167). -/
theorem Hears.next_cell (hp : 2 ≤ p) (h : Hears s (List.replicate m s.dec.ref ++ cells p s.dec.ref (b :: bs)))
    (hph : s.dec.phase = .startEdge ∧ ph = .startSample ∨ s.dec.phase = .dataEdge ∧ ph = .dataSample) :
    ∃ t, Reaches (m + 1) s t ∧ InCell p t ph (b :: bs) ∧ t.dec.acc = s.dec.acc ∧ t.dec.bitIdx = s.dec.bitIdx ∧
      t.frame = s.frame := by
  obtain ⟨u, hwait, hu, hframe, hdec⟩ := h.wait_steady (by rcases hph with ⟨hph, -⟩ | ⟨hph, -⟩ <;> rw [hph] <;> rfl)
  have href : u.dec.ref = s.dec.ref := by rw [hdec]
  rw [← href] at hu
  obtain ⟨ho, hpin⟩ := hu.transition hp
  have hne : ¬ (nextInput u).pinIn = u.dec.ref := by rw [hpin]; exact Bool.not_ne_self _
  obtain ⟨hstart, hdata⟩ := cellEdge u ho hu.receiving
  rw [if_neg hne] at hstart hdata
  have hkeep : (begun u).dec.acc = s.dec.acc ∧ (begun u).dec.bitIdx = s.dec.bitIdx ∧ (begun u).frame = s.frame := by
    rw [begun_dec, begun_frame, hdec]
    exact ⟨rfl, rfl, hframe⟩
  rcases hph with ⟨hph, rfl⟩ | ⟨hph, rfl⟩
  · obtain ⟨hreach, hcell⟩ := hu.inCell hp (hstart (by rw [hdec]; exact hph)) hpin rfl nofun rfl
    exact ⟨_, hwait.trans hreach rfl, hcell, hkeep⟩
  · obtain ⟨hreach, hcell⟩ := hu.inCell hp (hdata (by rw [hdec]; exact hph)) hpin rfl nofun rfl
    exact ⟨_, hwait.trans hreach rfl, hcell, hkeep⟩

/-- The same from the sampling step on, which leaves the reference level at the level sampled. -/
theorem Hears.sample_next_cell {l c : Bool} (hp : 2 ≤ p) (h : Hears s (levelsFromSample p l c (b :: bs)))
    (ht : step s = .next t) (href : t.dec.ref = levelAfter l c)
    (hph : t.dec.phase = .startEdge ∧ ph = .startSample ∨ t.dec.phase = .dataEdge ∧ ph = .dataSample) :
    ∃ u, Reaches (p - 3 * p / 4 + 1) s u ∧ InCell p u ph (b :: bs) ∧ u.dec.acc = t.dec.acc ∧
      u.dec.bitIdx = t.dec.bitIdx ∧ u.frame = t.frame := by
  have hgo := h.goes_on ht (by rcases hph with ⟨hph, -⟩ | ⟨hph, -⟩ <;> rw [hph] <;> exact nofun)
  rw [← href] at hgo
  obtain ⟨u, hreach, hu⟩ := hgo.next_cell hp hph
  exact ⟨u, (h.reaches ht).trans hreach (by omega), hu⟩

/-! ## The start cells (40_decoder.md R165) -/

/-- A further cell of the preamble is no start cell. -/
theorem InCell.preamble_cell (hp : 2 ≤ p) (h : InCell p s .startSample (false :: b :: bs))
    (hacc : s.dec.acc = 8 * p) :
    ∃ t, Reaches p s t ∧ InCell p t .startSample (b :: bs) ∧ t.dec.acc = 8 * p := by
  obtain ⟨t, hreach, -, hdec, htmr, ht⟩ := h.sample_point hp (.inl rfl) hacc
  have hlevel : t.dec.ref = levelAfter (!s.dec.ref) false := by rw [hdec]; exact (Bool.not_not _).symm
  have hstep := startSample t ht.ordinary ht.receiving (by rw [hdec]; exact h.phase)
  rw [if_neg (by omega), if_pos (ht.pin.trans hlevel.symm)] at hstep
  have href : (begun t).dec.ref = t.dec.ref := by rw [begun_dec]
  have hkeep : (begun t).dec.acc = s.dec.acc := by rw [begun_dec, hdec]
  obtain ⟨u, hreach', hcell, huacc, -, -⟩ := ht.sample_next_cell hp hstep (href.trans hlevel) (.inl ⟨rfl, rfl⟩)
  exact ⟨u, hreach.trans hreach' (by omega), hcell, huacc.trans (hkeep.trans hacc)⟩

/-- The start cell opens the data. -/
theorem InCell.start_cell (hp : 2 ≤ p) (h : InCell p s .startSample (true :: b :: bs)) (hacc : s.dec.acc = 8 * p) :
    ∃ t, Reaches p s t ∧ InCell p t .dataSample (b :: bs) ∧ t.dec.acc = 8 * p ∧ t.dec.bitIdx = 0 := by
  obtain ⟨t, hreach, -, hdec, htmr, ht⟩ := h.sample_point hp (.inl rfl) hacc
  have hpin : (nextInput t).pinIn = !t.dec.ref := by rw [ht.pin, hdec]; rfl
  have hstep := startSample t ht.ordinary ht.receiving (by rw [hdec]; exact h.phase)
  rw [if_neg (by omega), if_neg (by rw [hpin]; exact Bool.not_ne_self _)] at hstep
  have hkeep : (begun t).dec.acc = s.dec.acc := by rw [begun_dec, hdec]
  obtain ⟨u, hreach', hcell, huacc, huidx, -⟩ := ht.sample_next_cell hp hstep ht.pin (.inr ⟨rfl, rfl⟩)
  exact ⟨u, hreach.trans hreach' (by omega), hcell, huacc.trans (hkeep.trans hacc), huidx⟩

/-- The rest of the preamble and the start cell. -/
theorem InCell.start (hp : 2 ≤ p) (h : InCell p s .startSample (List.replicate m false ++ true :: b :: bs))
    (hacc : s.dec.acc = 8 * p) :
    ∃ t, Reaches ((m + 1) * p) s t ∧ InCell p t .dataSample (b :: bs) ∧ t.dec.acc = 8 * p ∧ t.dec.bitIdx = 0 := by
  induction m generalizing s with
  | zero =>
    rw [Nat.zero_add, Nat.one_mul]
    exact h.start_cell hp hacc
  | succ m ih =>
    obtain ⟨b', bs', hcells⟩ : ∃ b' bs', List.replicate m false ++ true :: b :: bs = b' :: bs' :=
      List.exists_cons_of_ne_nil (by simp)
    rw [List.replicate_succ, List.cons_append, hcells] at h
    obtain ⟨t, hreach, hcell, htacc⟩ := h.preamble_cell hp hacc
    obtain ⟨u, hreach', hu⟩ := ih (hcells ▸ hcell) htacc
    exact ⟨u, hreach.trans hreach' (by rw [Nat.add_mul (m + 1), Nat.one_mul, Nat.add_comm]), hu⟩

/-! ## The data cells (40_decoder.md R168, R169) -/

/-- Bit `j` of the frame buffer in the order of transmission: bit 7 of byte 0 first (30_encoding.md R121). -/
def frameBit (m : Memory) (j : Nat) : Bool := (m.read (j / 8)).getLsbD (7 - j % 8)

/-- The bits `done` are received: they stand in the frame buffer, and the next one is to come. -/
structure Received (s : State) (done : List Bool) : Prop where
  idx : s.dec.bitIdx = done.length
  bits : ∀ j (h : j < done.length), frameBit s.frame j = done[j]

/-- A bit store adds one bit to those received. -/
theorem Received.store (h : Received s done) (hidx : t.dec.bitIdx = s.dec.bitIdx + 1)
    (hbits : ∀ a k, k < 8 → (t.frame.read a).getLsbD k =
      if a = s.dec.bitIdx / 8 ∧ k = 7 - s.dec.bitIdx % 8 then b else (s.frame.read a).getLsbD k) :
    Received t (done ++ [b]) where
  idx := by rw [hidx, h.idx, List.length_append, List.length_singleton]
  bits j hj := by
    rw [List.length_append, List.length_singleton] at hj
    rw [frameBit, hbits _ _ (by omega), h.idx]
    by_cases hlast : j = done.length
    · rw [if_pos ⟨by rw [hlast], by rw [hlast]⟩]
      subst hlast
      simp
    · rw [if_neg (by omega), List.getElem_append_left (by omega)]
      exact h.bits j _

/-- The level at the sample point tells a `1` from a `0`. -/
theorem levelAfter_bne (r b : Bool) : (levelAfter (!r) b != r) = b := by
  cases b <;> cases r <;> rfl

/-- The bits received are a whole frame (40_decoder.md R169). -/
structure Complete (p : Nat) (t : State) (done : List Bool) : Prop where
  received : Received t done
  listening : t.boot.bootState = .listening
  dispatch : t.boot.lstPhase = .dispatch
  frameOk : t.out.frameOk = true
  acc : t.dec.acc = 8 * p
  delay : t.dec.delay = 3 * p / 4

/-- The sample of a data cell stores the bit that the cell codes; then the next cell is awaited, or the frame is
complete. -/
theorem InCell.data_sample (hp : 2 ≤ p) (h : InCell p s .dataSample (b :: bs)) (hacc : s.dec.acc = 8 * p)
    (hdone : Received s done) :
    ∃ t u, Reaches (3 * p / 4 - 1) s t ∧ Hears t (levelsFromSample p (!s.dec.ref) b bs) ∧ step t = .next u ∧
      (done.length + 1 = s.cfg.frameBits → Complete p u (done ++ [b])) ∧
      (done.length + 1 ≠ s.cfg.frameBits → Received u (done ++ [b]) ∧ u.dec.phase = .dataEdge ∧
        u.dec.ref = levelAfter (!s.dec.ref) b ∧ u.dec.acc = 8 * p) := by
  obtain ⟨t, hreach, hframe, hdec, htmr, ht⟩ := h.sample_point hp (.inr rfl) hacc
  have href : t.dec.ref = s.dec.ref := by rw [hdec]
  have hdone' : Received t done := ⟨by rw [hdec]; exact hdone.idx, by rw [hframe]; exact hdone.bits⟩
  have hbacc : (begun t).dec.acc = 8 * p := by rw [begun_dec, hdec]; exact hacc
  have hbdelay : (begun t).dec.delay = 3 * p / 4 := by
    rw [begun_dec, hdec]
    exact h.delay_eq (.inr rfl) hacc
  obtain ⟨-, hat⟩ := dataSample t ht.inv ht.ordinary ht.receiving (by rw [hdec]; exact h.phase)
  obtain ⟨u, hstep, hbits, hlast, hmore⟩ := hat htmr.ge
  rw [hdone'.idx, hreach.cfg] at hlast hmore
  rw [ht.pin, href, levelAfter_bne] at hbits
  refine ⟨t, u, hreach, ht, hstep, fun hi => ?last, fun hi => ?more⟩
  case last =>
    have hu := hlast hi
    refine ⟨hdone'.store (by rw [hu, hdone'.idx]) hbits, ?_, by rw [hu], by rw [hu], by rw [hu]; exact hbacc,
      by rw [hu]; exact hbdelay⟩
    rw [hu, ← ht.receiving.1, ← begun_boot t]
  case more =>
    have hu := hmore hi
    exact ⟨hdone'.store (by rw [hu, hdone'.idx]) hbits, by rw [hu], by rw [hu]; exact ht.pin,
      by rw [hu]; exact hbacc⟩

/-- All data cells up to the sample of the last one. -/
theorem InCell.data (hp : 2 ≤ p) (h : InCell p s .dataSample (b :: bs)) (hacc : s.dec.acc = 8 * p)
    (hdone : Received s done) (hlen : done.length + (bs.length + 1) = s.cfg.frameBits) :
    ∃ t, Reaches (bs.length * p + 3 * p / 4) s t ∧ Complete p t (done ++ b :: bs) := by
  induction bs generalizing s b done with
  | nil =>
    obtain ⟨t, u, hreach, ht, hstep, hlast, -⟩ := h.data_sample hp hacc hdone
    exact ⟨u, hreach.trans (ht.reaches hstep) (by rw [List.length_nil]; omega), hlast hlen⟩
  | cons b' bs ih =>
    rw [List.length_cons] at hlen
    obtain ⟨t, u, hreach, ht, hstep, -, hmore⟩ := h.data_sample hp hacc hdone
    obtain ⟨hrec, hph, href, huacc⟩ := hmore (by omega)
    obtain ⟨v, hreach', hcell, hvacc, hvidx, hvframe⟩ := ht.sample_next_cell hp hstep href (.inr ⟨hph, rfl⟩)
    have hsv : Reaches p s v := hreach.trans hreach' (by omega)
    have hrec' : Received v (done ++ [b]) := ⟨hvidx.trans hrec.idx, by rw [hvframe]; exact hrec.bits⟩
    obtain ⟨x, hvx, hx⟩ := ih hcell (hvacc.trans huacc) hrec'
      (by rw [hsv.cfg, List.length_append, List.length_singleton]; omega)
    rw [List.append_assoc] at hx
    exact ⟨x, hsv.trans hvx (by rw [List.length_cons, Nat.add_mul, Nat.one_mul]; omega), hx⟩

/-! ## The frame -/

@[simp] theorem length_byteBits (v : Byte) : (byteBits v).length = 8 := rfl

theorem getElem_byteBits (v : Byte) {k : Nat} (hk : k < 8) :
    (byteBits v)[7 - k]'(by rw [length_byteBits]; omega) = v.getLsbD k := by
  interval_cases k <;> rfl

/-- Bits that stand in the frame buffer in the order of transmission make up the bytes sent. -/
theorem readList_of_frameBits {m : Memory} {bytes : List Byte} {a : Nat}
    (h : ∀ j (hj : j < (bytes.flatMap byteBits).length), frameBit m (8 * a + j) = (bytes.flatMap byteBits)[j]) :
    m.readList a bytes.length = bytes := by
  induction bytes generalizing a with
  | nil => rfl
  | cons v bytes ih =>
    simp only [List.flatMap_cons, List.length_append, length_byteBits] at h
    have hread : m.read a = v := by
      refine BitVec.eq_of_getLsbD_eq fun k hk => ?_
      have hbit := h (7 - k) (by omega)
      rw [List.getElem_append_left (by rw [length_byteBits]; omega), getElem_byteBits v hk, frameBit] at hbit
      rwa [show (8 * a + (7 - k)) / 8 = a by omega, show 7 - (8 * a + (7 - k)) % 8 = k by omega] at hbit
    have hrest := ih (a := a + 1) fun j hj => by
      have hbit := h (8 + j) (by omega)
      rw [List.getElem_append_right (by rw [length_byteBits]; omega)] at hbit
      simpa [Nat.mul_add, Nat.add_assoc] using hbit
    rw [List.length_cons, Memory.readList, hread, hrest]

theorem length_flatMap_byteBits (bytes : List Byte) : (bytes.flatMap byteBits).length = 8 * bytes.length := by
  simp [List.length_flatMap, Nat.mul_comm]

/-- Settles O39: the first transition, the sixteen measured intervals, the rest of the preamble with the start cell,
and the data cells, each cell `p` steps from its transition to the next. -/
theorem nominalFrameDecodes : Obligations.NominalFrameDecodes := by
  intro s p idle k bytes hinv hcalm hrec hph hp hfit hk hbytes hpins
  obtain ⟨m, rfl⟩ := Nat.exists_eq_add_of_le hk
  have hbits : (bytes.flatMap byteBits).length = s.cfg.frameBits := by
    rw [length_flatMap_byteBits, hbytes, Config.frameBits]
  obtain ⟨b, bs, hcons⟩ : ∃ b bs, bytes.flatMap byteBits = b :: bs :=
    List.exists_cons_of_length_pos (hbits ▸ frameBits_pos _)
  obtain ⟨c, cs, hpre⟩ : ∃ c cs, List.replicate m false ++ true :: b :: bs = c :: cs :=
    List.exists_cons_of_ne_nil (by simp)
  have hhears : Hears s (List.replicate idle s.dec.ref ++
      cells p s.dec.ref (false :: (List.replicate 15 false ++ c :: cs))) := by
    refine ⟨hinv, hcalm, hrec, ?_⟩
    rw [hpins, tx, hcons, ← hpre, ← List.replicate_append_replicate, List.append_assoc]
    rfl
  obtain ⟨u, hidle, hmeas, hn, hacc⟩ := hhears.syncFirst_inCell hp hph
  obtain ⟨v, hsync, hstart, hvacc⟩ :=
    hmeas.measure_all hp (by rwa [hidle.cfg]) (by rw [hn]; rfl) (by rw [hacc, hn]; exact (Nat.zero_mul p).symm)
  obtain ⟨x, hopen, hdata, hxacc, hxidx⟩ := InCell.start hp (hpre ▸ hstart) hvacc
  have hsx := (hidle.trans hsync rfl).trans hopen rfl
  rw [hcons, List.length_cons] at hbits
  obtain ⟨t, hrest, ht⟩ := hdata.data hp hxacc (done := []) ⟨hxidx, nofun⟩
    (by rw [hsx.cfg, List.length_nil, Nat.zero_add, hbits])
  have hall : Reaches (idle + 1 + (16 + m + s.cfg.frameBits) * p + 3 * p / 4) s t := by
    refine hsx.trans hrest ?_
    rw [← hbits]
    ring
  have hframe : t.frame.readList 0 s.cfg.frameSize = bytes := by
    rw [← hbytes]
    refine readList_of_frameBits fun j hj => ?_
    simp only [hcons] at hj ⊢
    simpa using ht.received.bits j hj
  exact ⟨t, hall.run, hframe, ht.listening, ht.dispatch, ht.frameOk, ht.acc, ht.delay, hall.flash⟩

end Sys2Proof.Machine
end

section
/-! The commands and the completion phases of LISTENING (41_dispatcher.md R210 to R222): which rule a step outside RX
is, the state each one answers, and the run of EE_WRITE from its first byte to the hand-off. -/

namespace Sys2Proof.Machine

variable {s t u : State}

/-! ## The commands -/

/-- Settles O21: each of the nine is DISPATCH_END (41_dispatcher.md R221). -/
theorem noActionCommands : Obligations.NoActionCommands := by
  intro s i f hi
  have hend : exec i s = .next (dispatchEnd s) := by
    rcases hi with rfl | rfl | rfl | ⟨b, rfl⟩ | ⟨b, rfl⟩ | ⟨b, rfl⟩ | ⟨b, rfl⟩ | ⟨b, rfl⟩ | ⟨b, rfl⟩ <;> rfl
  exact hend

/-- BOOT_START is a multiple of the page size, so a page begins below it exactly when its index is below the
quotient. -/
theorem pageAddr_lt_bootStart_iff {c : Config} (hw : c.wf = true) {x : Word} :
    pageAddr c x < c.bootStart ↔ x.toNat < c.bootStart / c.pageSize := by
  obtain ⟨-, -, -, -, hboot, -⟩ := Config.wf_iff.mp hw
  exact (Nat.lt_div_iff_mul_lt' (Nat.dvd_of_mod_eq_zero hboot) x.toNat).symm

/-- Settles O22: the guard on the page's address is the guard on its index. -/
theorem programCommand : Obligations.ProgramCommand := by
  intro s f hw
  refine ⟨fun hlow => ?starts, fun hhigh => ?skipped⟩
  case starts => exact if_pos ((pageAddr_lt_bootStart_iff hw).mpr hlow)
  case skipped => exact if_neg (mt (pageAddr_lt_bootStart_iff hw).mp hhigh.not_gt)

theorem eeCount_toNat (c : Config) (length : Word) : (eeCount c length).toNat = min length.toNat c.pageSize :=
  Nat.mod_eq_of_lt ((Nat.min_le_left ..).trans_lt length.isLt)

/-- Settles O24: the count is at most the length field, so it keeps its 16 bits. -/
theorem eepromWriteCommand : Obligations.EepromWriteCommand := fun s f =>
  ⟨_, rfl, rfl, eeCount_toNat s.cfg f.length⟩

/-- The payload and the rest of the header stand where at most the command byte is cleared. -/
theorem DataStands.read_frame (h : DataStands s t) {a : Nat} (ha : a ≠ 0) : t.frame.read a = s.frame.read a := by
  rcases h.frame with hsame | hclear
  · rw [hsame]
  · rw [hclear, Memory.read_write_other _ _ ha.symm]

/-- Settles O25: each of the four things a command can do leaves every register listed as it is. -/
theorem commandFrame : Obligations.CommandFrame := by
  intro i s t h
  have hframe : ∀ a, a ≠ 0 → t.frame.read a = s.frame.read a := fun a => (DataStands.exec h).read_frame
  rcases exec_next h with rfl | ⟨f, -, rfl⟩ | rfl | ⟨f, ⟨⟩⟩
  all_goals
    exact ⟨rfl, rfl, rfl, rfl, rfl, rfl, rfl, rfl, rfl, rfl, rfl, rfl, rfl, rfl, rfl, rfl, rfl, hframe⟩

/-! ## Which rule a step of LISTENING is -/

theorem step_of_listening (ho : Ordinary s) (hb : s.boot.bootState = .listening) :
    step s = listeningStep (begun s) := by
  rw [step_of_ordinary ho, controllerStep, begun_boot, hb]

theorem listeningStep_of_dispatch (hl : s.boot.lstPhase = .dispatch) {i : Instr} (hi : fetch s = .ok i) :
    listeningStep s = exec i s := by
  rw [listeningStep, hl]
  simp only [hi]

theorem listeningStep_of_progWait (hl : s.boot.lstPhase = .progWait) : listeningStep s = progWaitStep s := by
  rw [listeningStep, hl]

theorem listeningStep_of_runWait (hl : s.boot.lstPhase = .runWait) : listeningStep s = runWaitStep s := by
  rw [listeningStep, hl]

theorem listeningStep_of_eeWrite (hl : s.boot.lstPhase = .eeWrite) : listeningStep s = eeWriteStep s := by
  rw [listeningStep, hl]

/-- Sampling leaves the frame buffer alone. -/
theorem fetch_begun (s : State) : fetch (begun s) = fetch s := by
  rw [fetch, frameBytes, begun_frame, begun_cfg]
  rfl

/-- Settles O20: a step in DISPATCH fetches from the frame buffer and runs what it fetched. -/
theorem stepRunsDecoded : Obligations.StepRunsDecoded := by
  intro s i ho hb hl hi
  rw [step_of_listening ho hb]
  exact listeningStep_of_dispatch (by rw [begun_boot, hl]) ((fetch_begun s).trans hi)

/-! ## PROG_WAIT and RUN_WAIT -/

theorem progWaitStep_of_done (hd : s.fp.phase = .done) :
    progWaitStep s = .next (dispatchEnd (toggleLed { s with fp.phase := .idle })) :=
  if_pos hd

/-- Settles O26: before DONE the step is the programmer's, and in DONE the end of the dispatch. -/
theorem progWait : Obligations.ProgWait := by
  intro s ho hb hl
  refine ⟨step_of_progWait ho hb hl, fun hd => ?_⟩
  rw [step_of_listening ho hb, listeningStep_of_progWait (by rw [begun_boot, hl]),
    progWaitStep_of_done (by rw [begun_fp, hd]), ← begun_boot s, ← begun_frame s]
  rfl

/-- The function-address slot lies in FLASH (20_memory.md R81). -/
theorem Config.funcAddr_in_flash {c : Config} (hw : c.wf = true) : c.funcAddr + 2 ≤ c.flashSize := by
  obtain ⟨hsize, -, -, -, -, hpos, hboot, -⟩ := Config.wf_iff.mp hw
  simp only [Config.funcAddr, Config.ptrBytes]
  omega

/-- While the controller is idle and flash reads are enabled, the slot can be read and the hand-off is made. -/
theorem runWaitStep_of_done (hw : s.cfg.wf = true) (hf : FetchLegal s) (hd : s.fp.phase = .done) :
    runWaitStep s = .next (handoffResult .run (clearCommand { s with fp.phase := .idle })) :=
  (if_pos hd).trans (handoff_next.mpr ⟨hf.2, hf.1, Config.funcAddr_in_flash hw, rfl⟩)

/-- The front of a step leaves the slot alone. -/
theorem slotValue_begun (s : State) : slotValue (begun s) = slotValue s := by
  rw [slotValue, begun_fc, begun_cfg]
  rfl

/-- In IDLE or DONE of the programmer the front of a step leaves flash fetches legal. -/
theorem Inv.fetchLegal_begun (h : Inv s) (ho : Ordinary s) (hp : s.fp.phase = .idle ∨ s.fp.phase = .done) :
    FetchLegal (Machine.begun s) :=
  ((h.begun ho).flash_idle (by rwa [begun_fp])).symm

/-- Settles O27: before DONE the step is the programmer's, and in DONE the slot can be read and the block hands
off. -/
theorem runWait : Obligations.RunWait := by
  intro s h ho hb hl
  refine ⟨step_of_runWait ho hb hl, fun hd => ?_⟩
  have hread := h.fetchLegal_begun ho (.inr hd)
  rw [step_of_listening ho hb, listeningStep_of_runWait (by rw [begun_boot, hl]),
    runWaitStep_of_done (h.begun ho).cfg hread (by rw [begun_fp, hd]), ← slotValue_begun s, ← begun_frame s]
  rfl

/-! ## EE_WRITE -/

/-- What EE_WRITE does while a byte is left (41_dispatcher.md R220). -/
def eeWriteResult (s : State) : State :=
  { s with
    out.eeWe := true
    out.eeAddr := s.ee.base + s.ee.i.toNat
    out.eeData := payloadByte s s.ee.i.toNat
    eeLog := s.eeLog ++ [{ step := s.stepNo, addr := s.ee.base + s.ee.i.toNat, data := payloadByte s s.ee.i.toNat }]
    ee.i := s.ee.i + 1#16 }

theorem eeWriteStep_of_lt (hi : s.ee.i.toNat < s.ee.n.toNat) : eeWriteStep s = .next (eeWriteResult s) :=
  if_pos hi

/-- While the controller is idle and flash reads are enabled, the slot can be read and the hand-off is made. -/
theorem eeWriteStep_of_le (hw : s.cfg.wf = true) (hf : FetchLegal s) (hi : s.ee.n.toNat ≤ s.ee.i.toNat) :
    eeWriteStep s = .next (handoffResult .eeprom (clearCommand s)) :=
  (if_neg hi.not_gt).trans (handoff_next.mpr ⟨hf.2, hf.1, Config.funcAddr_in_flash hw, rfl⟩)

theorem step_of_eeWrite_lt (ho : Ordinary s) (hb : s.boot.bootState = .listening) (hl : s.boot.lstPhase = .eeWrite)
    (hi : s.ee.i.toNat < s.ee.n.toNat) : step s = .next (eeWriteResult (begun s)) := by
  rw [step_of_listening ho hb, listeningStep_of_eeWrite (by rw [begun_boot, hl]), eeWriteStep_of_lt (by rwa [begun_ee])]

theorem step_of_eeWrite_le (h : Inv s) (ho : Ordinary s) (hb : s.boot.bootState = .listening)
    (hl : s.boot.lstPhase = .eeWrite) (hi : s.ee.n.toNat ≤ s.ee.i.toNat) :
    step s = .next (handoffResult .eeprom (clearCommand (begun s))) := by
  have hread := h.fetchLegal_begun ho (.inl (h.fp_idle (by simp [hl])))
  rw [step_of_listening ho hb, listeningStep_of_eeWrite (by rw [begun_boot, hl]),
    eeWriteStep_of_le (h.begun ho).cfg hread (by rwa [begun_ee])]

/-- A counter below another one does not wrap. -/
theorem toNat_add_one_of_lt {x y : BitVec 16} (h : x.toNat < y.toNat) : (x + 1#16).toNat = x.toNat + 1 := by
  bv_omega

/-- Settles O28: while a byte is left the port carries it; after the last one the slot can be read and the block hands
off. -/
theorem eeWriteStep_spec : Obligations.EeWriteStep := by
  intro s h ho hb hl
  refine ⟨fun hi => ?writes, fun hi => ?handsOff⟩
  case writes =>
    refine ⟨_, step_of_eeWrite_lt ho hb hl hi, ?_, ?_⟩
    · simp [eeWriteResult, payloadByte]
    · simpa [eeWriteResult] using toNat_add_one_of_lt hi
  case handsOff =>
    rw [step_of_eeWrite_le h ho hb hl hi, ← slotValue_begun s, ← begun_frame s]
    rfl

/-! ## The run of EE_WRITE -/

/-- The block is in EE_WRITE and the environment is quiet: what every write keeps. -/
structure EeWriting (s : State) : Prop where
  inv : Inv s
  quiet : Quiet s
  listening : s.boot.bootState = .listening
  eeWrite : s.boot.lstPhase = .eeWrite

/-- In a quiet environment the inputs of the last step are held. -/
theorem Quiet.begun_eq (h : Quiet s) : begun s = tick s := by rw [begun, sampleInputs, h.1]

theorem Quiet.ordinary (h : Quiet s) (hw : s.cfg.wf = true) : Ordinary s := by
  obtain ⟨hlist, hrst, hie, hirq⟩ := h
  have hheld : sampleInputs s = s := by rw [sampleInputs, hlist]
  simp [Ordinary, nextInput, hheld, stepRefusal, hw, hrst, hie, hirq]

theorem EeWriting.ordinary (h : EeWriting s) : Ordinary s := h.quiet.ordinary h.inv.cfg

theorem EeWriting.step_write (h : EeWriting s) (hi : s.ee.i.toNat < s.ee.n.toNat) :
    step s = .next (eeWriteResult (begun s)) ∧ EeWriting (eeWriteResult (begun s)) := by
  have hstep := step_of_eeWrite_lt h.ordinary h.listening h.eeWrite hi
  have hinv := stepKeepsInv _ _ h.inv hstep
  rw [h.quiet.begun_eq] at hstep hinv ⊢
  exact ⟨hstep, hinv, h.quiet, h.listening, h.eeWrite⟩

/-- The next `m` writes of EE_WRITE, one per step. -/
def eeWrites (s : State) (m : Nat) : List EeWrite :=
  (List.range m).map fun k =>
    { step := s.stepNo + 1 + k
      addr := s.ee.base + (s.ee.i.toNat + k)
      data := s.frame.read (7 + (s.ee.i.toNat + k)) }

/-- The first write stands in the log, and the others are the next ones of the state after it. -/
theorem eeWrites_after_write (hi : s.ee.i.toNat < s.ee.n.toNat) (m : Nat) :
    (eeWriteResult (begun s)).eeLog ++ eeWrites (eeWriteResult (begun s)) m = s.eeLog ++ eeWrites s (m + 1) := by
  have hcount : (s.ee.i + 1#16).toNat = s.ee.i.toNat + 1 := toNat_add_one_of_lt hi
  rw [eeWrites, eeWrites, List.range_succ_eq_map, List.map_cons, List.map_map]
  simp [eeWriteResult, payloadByte, hcount, Nat.add_assoc, Nat.add_comm]

/-- `t` is the end of the EEPROM write that `s` is in: the hand-off, with FLASH, `sev` and the LED as in `s`. -/
structure EepromEnd (s t : State) : Prop where
  bootState : t.boot.bootState = .runApplication
  appCause : t.boot.appCause = .eeprom
  appEntry : t.boot.appEntry = slotValue s
  flash : t.fc.flash = s.fc.flash
  sev : t.sev = s.sev
  led : t.boot.led = s.boot.led
  command : t.frame.read 0 = 0#8

/-- A write changes nothing that the end of the run shows, but the log. -/
theorem EepromEnd.of_write (h : EepromEnd (eeWriteResult (begun s)) t) : EepromEnd s t :=
  { h with
    appEntry := h.appEntry.trans (slotValue_begun s)
    flash := by rw [h.flash]; simp [eeWriteResult]
    sev := by rw [h.sev]; simp [eeWriteResult]
    led := by rw [h.led]; simp [eeWriteResult] }

theorem EeWriting.step_last (h : EeWriting s) (hi : s.ee.n.toNat ≤ s.ee.i.toNat) :
    ∃ t, step s = .next t ∧ t.eeLog = s.eeLog ∧ EepromEnd s t := by
  refine ⟨_, step_of_eeWrite_le h.inv h.ordinary h.listening h.eeWrite hi, ?_, rfl, rfl, ?_, ?_, ?_, ?_, ?_⟩
  · simp [handoffResult]
  · exact slotValue_begun s
  all_goals simp [handoffResult]

/-- EE_WRITE with `m` bytes left: `m` writes, then the hand-off. -/
theorem EeWriting.run {m : Nat} (h : EeWriting s) (hm : s.ee.i.toNat + m = s.ee.n.toNat) :
    ∃ t, runSteps (m + 1) s = .next t ∧ t.eeLog = s.eeLog ++ eeWrites s m ∧ EepromEnd s t := by
  induction m generalizing s with
  | zero =>
    obtain ⟨t, hstep, hlog, hend⟩ := h.step_last hm.ge
    exact ⟨t, by rw [runSteps, hstep]; rfl, by rw [hlog]; exact (List.append_nil _).symm, hend⟩
  | succ m ih =>
    have hi : s.ee.i.toNat < s.ee.n.toNat := by omega
    obtain ⟨hstep, hnext⟩ := h.step_write hi
    obtain ⟨t, hrun, hlog, hend⟩ := ih hnext (by
      simp only [eeWriteResult, begun_ee, toNat_add_one_of_lt hi]
      omega)
    exact ⟨t, by rw [runSteps, hstep]; exact hrun, by rw [hlog, eeWrites_after_write hi], hend.of_write⟩

/-- Settles O29: the run from the first byte. -/
theorem eepromRun : Obligations.EepromRun := by
  intro s h hq hb hl hi
  obtain ⟨t, hrun, hlog, hend⟩ := EeWriting.run (m := s.ee.n.toNat) ⟨h, hq, hb, hl⟩ (by simp [hi])
  obtain ⟨hstate, hcause, hentry, hflash, hsev, hled, hcmd⟩ := hend
  refine ⟨t, hrun, ?_, hstate, hcause, hentry, hflash, hsev, hled, hcmd⟩
  simpa [eeWrites, hi] using hlog

end Sys2Proof.Machine
end

section
/-! The Flash Programmer, phase by phase (42_flash_programmer.md R251 to R265): what its array writes read as, the byte
that a sequence puts at each offset of its page, and the step of each phase under the invariant. -/

namespace Sys2Proof.Machine

variable {s t : State}

/-! ## Array writes -/

/-- A word in an array: its low byte first (20_memory.md R90). -/
theorem Memory.read_writeList_leBytes (m : Memory) (a b : Nat) (w : Word) :
    (m.writeList a (leBytes w)).read b = if b = a then loByte w else if b = a + 1 then hiByte w else m.read b := by
  rw [leBytes, Memory.writeList, Memory.writeList, Memory.writeList, Memory.read_write, Memory.read_write]
  by_cases h0 : b = a
  · simp [h0]
  · simp [Ne.symm h0, h0, eq_comm]

/-- A block of one value. -/
theorem Memory.read_writeList_replicate (m : Memory) (a n b : Nat) (v : Byte) :
    (m.writeList a (List.replicate n v)).read b = if a ≤ b ∧ b < a + n then v else m.read b := by
  rw [Memory.read_writeList, List.length_replicate]
  refine if_ctx_congr Iff.rfl (fun h => ?_) fun _ => rfl
  rw [List.getD_replicate _ (by omega)]

/-- A block copied from another array. -/
theorem Memory.read_writeList_readList (m m' : Memory) (a c n b : Nat) :
    (m.writeList a (m'.readList c n)).read b = if a ≤ b ∧ b < a + n then m'.read (c + (b - a)) else m.read b := by
  rw [Memory.read_writeList, Memory.length_readList]
  refine if_ctx_congr Iff.rfl (fun h => ?_) fun _ => rfl
  rw [List.getD_eq_getElem _ _ (by rw [Memory.length_readList]; omega), Memory.getElem_readList]

/-- READ: the block inside its range, the page's bytes elsewhere (42_flash_programmer.md R263, R264). -/
theorem read_readResult_m (s : State) {i : Nat} (hi : i < s.cfg.pageSize) :
    (readResult s).fp.m.read i =
      if s.fp.blkOff ≤ i ∧ i < s.fp.blkOff + s.fp.blkLen then s.fp.blk.read (i - s.fp.blkOff)
      else s.fc.flash.read (s.fp.page + i) := by
  simp only [readResult, Memory.read_writeList_readList, Nat.zero_le, Nat.zero_add, Nat.sub_zero, true_and, if_pos hi]

/-! ## The bytes of a sequence -/

/-- Byte `i` of the sequence's source: the payload, or the merge buffer (42_flash_programmer.md R254). -/
def sourceByte (s : State) (i : Nat) : Byte :=
  match s.fp.kind with
  | .fullPage => payloadByte s i
  | .block => s.fp.m.read i

theorem sourceByte_fullPage (h : s.fp.kind = .fullPage) (i : Nat) : sourceByte s i = payloadByte s i := by
  rw [sourceByte, h]

theorem sourceByte_block (h : s.fp.kind = .block) (i : Nat) : sourceByte s i = s.fp.m.read i := by
  rw [sourceByte, h]

theorem srcWord_eq (s : State) (k : Nat) : srcWord s k = le16 (sourceByte s (2 * k)) (sourceByte s (2 * k + 1)) := by
  unfold srcWord sourceByte
  cases s.fp.kind <;> rfl

/-- The source word as the frame buffer or the merge buffer holds it (42_flash_programmer.md R254). -/
theorem srcWord_eq_ite (s : State) (k : Nat) :
    srcWord s k = if s.fp.kind = .fullPage then le16 (s.frame.read (7 + 2 * k)) (s.frame.read (8 + 2 * k))
      else le16 (s.fp.m.read (2 * k)) (s.fp.m.read (2 * k + 1)) := by
  have hodd : 8 + 2 * k = 7 + (2 * k + 1) := by omega
  rw [hodd]
  unfold srcWord
  cases s.fp.kind <;> rfl

/-- The sequence is the full page program of page zero, which patches the vector (42_flash_programmer.md R256). -/
abbrev PatchesVector (s : State) : Prop := s.fp.kind = .fullPage ∧ s.fp.page = 0

theorem interceptApplies_iff : interceptApplies s = true ↔ PatchesVector s ∧ s.fp.idx = 0 := by
  simp [interceptApplies, PatchesVector]

/-- The byte that the sequence puts at offset `i` of its page: the bootloader jump's where the vector is patched, the
source's elsewhere. -/
def pageByte (s : State) (i : Nat) : Byte :=
  if PatchesVector s ∧ i < 2 then (leBytes s.cfg.bootJumpWord).getD i 0#8 else sourceByte s i

theorem pageByte_of_two_le {i : Nat} (hi : 2 ≤ i) : pageByte s i = sourceByte s i :=
  if_neg fun h => absurd h.2 (by omega)

theorem pageByte_of_not_patches (hn : ¬ PatchesVector s) (i : Nat) : pageByte s i = sourceByte s i :=
  if_neg fun h => hn h.1

@[simp] theorem captureVector_fc (s : State) : (captureVector s).fc = s.fc := by
  rw [captureVector_eq]

@[simp] theorem captureVector_env (s : State) : (captureVector s).env = s.env := by
  rw [captureVector_eq]

/-- The two bytes of the word that FILL loads are the page's at the word's offsets. -/
theorem fillWord_bytes (s : State) :
    loByte (fillWord s) = pageByte s (2 * s.fp.idx) ∧ hiByte (fillWord s) = pageByte s (2 * s.fp.idx + 1) := by
  unfold fillWord
  split
  next h =>
    obtain ⟨hpatch, hidx⟩ := interceptApplies_iff.mp h
    simp [pageByte, hpatch, hidx, leBytes]
  next h =>
    have hn : ∀ i, 2 * s.fp.idx ≤ i → ¬ (PatchesVector s ∧ i < 2) := fun i hi hc =>
      h (interceptApplies_iff.mpr ⟨hc.1, by omega⟩)
    rw [pageByte, pageByte, if_neg (hn _ le_rfl), if_neg (hn _ (Nat.le_succ _)), srcWord_eq, loByte_le16, hiByte_le16]
    exact ⟨rfl, rfl⟩

/-- What FILL leaves in the page buffer. -/
theorem read_writeList_fillWord (m : Memory) (b : Nat) :
    (m.writeList (2 * s.fp.idx) (leBytes (fillWord s))).read b =
      if b = 2 * s.fp.idx ∨ b = 2 * s.fp.idx + 1 then pageByte s b else m.read b := by
  obtain ⟨hlo, hhi⟩ := fillWord_bytes s
  rw [Memory.read_writeList_leBytes, hlo, hhi]
  split_ifs <;> simp_all

/-! ## Which rule a step of the programmer is -/

/-- The block waits for the programmer (41_dispatcher.md R218, R219). -/
def AwaitsProgrammer (s : State) : Prop :=
  s.boot.bootState = .listening ∧ (s.boot.lstPhase = .progWait ∨ s.boot.lstPhase = .runWait)

/-- Before DONE the step is then the programmer's. -/
theorem AwaitsProgrammer.step_eq (h : AwaitsProgrammer s) (ho : Ordinary s) (hd : s.fp.phase ≠ .done) :
    step s = programmerStep (begun s) := by
  obtain ⟨hb, hl | hl⟩ := h
  · exact step_of_progWait ho hb hl hd
  · exact step_of_runWait ho hb hl hd

/-- Under the invariant the block waits for the programmer while a sequence runs. -/
theorem Inv.step_programmer (h : Inv s) (ho : Ordinary s) {p : FpPhase} (hp : s.fp.phase = p)
    (hi : p ≠ .idle := by decide) (hd : p ≠ .done := by decide) :
    step s = Machine.programmerStep (Machine.begun s) :=
  AwaitsProgrammer.step_eq (h.programming.mp (by rwa [hp])) ho (by rwa [hp])

/-- From ERASE to RWW the front of a step leaves the interrupt enable alone (70_reset_and_hazards.md R393). -/
theorem begun_cpuIe_of_span (ho : Ordinary s) (hp : inCriticalSpan s.fp.phase = true) : (begun s).cpuIe = s.cpuIe := by
  have hnone : (nextInput s).cpuIe = none := no_cpu_write_in_span ho.1 ho.2 (by rwa [sampleInputs_fp])
  rw [tick_cpuIe, sampleInputs_cpuIe]
  exact congrArg (·.getD s.cpuIe) hnone

/-- Outside the wait phases the controller is idle when the programmer acts. -/
theorem Inv.begun_idle (h : Inv s) (ho : Ordinary s) (hw : waitsForFlash s.fp.phase = false) :
    (Machine.begun s).fc.busyLeft = 0 :=
  (h.begun ho).busy (by rwa [begun_fp])

/-- The page of a sequence is one of FLASH (20_memory.md R82, R91). -/
theorem Inv.page_operand (h : Inv s) (hi : s.fp.phase ≠ .idle) :
    s.fp.page % s.cfg.pageSize = 0 ∧ s.fp.page < s.cfg.flashSize := by
  obtain ⟨hsize, -⟩ := Config.wf_iff.mp h.cfg
  obtain ⟨haligned, -⟩ := h.page hi
  have hin := h.page_in_flash hi
  exact ⟨haligned, by omega⟩

theorem fcBusy_begun : fcBusy (begun s) = true ↔ nextBusy s := by
  rw [fcBusy_eq_true, begun_fc]
  rfl

/-- A wait phase holds while the controller is busy (42_flash_programmer.md R253, R257, R259). -/
theorem programmerStep_of_busy (hp : waitsForFlash s.fp.phase = true) (hb : fcBusy s = true) :
    programmerStep s = .next s := by
  unfold programmerStep
  cases hph : s.fp.phase with
  | eraseWait | fillWait | commitWait => exact if_pos hb
  | _ => simp [hph, waitsForFlash] at hp

/-! ## The phases -/

/-- Settles O41: under the invariant the page can be read. -/
theorem readAndMerge : Obligations.ReadAndMerge := by
  intro s h ho hp
  have hb := h.begun ho
  have hrule : step s = fpRead (begun s) := by rw [h.step_programmer ho hp, programmerStep, begun_fp, hp]
  have hread := fpRead_next.mpr ⟨h.begun_idle ho (by rw [hp]; rfl), by rw [hb.rww, begun_fp, hp]; rfl,
    hb.page_in_flash (by simp [hp]), rfl⟩
  refine ⟨_, hrule.trans hread, rfl, fun i hlt => ?_⟩
  simpa using read_readResult_m (begun s) (by simpa using hlt)

/-- Settles O42: the page is one of FLASH, and the CPU leaves `cpu_ie` alone in this step. -/
theorem eraseStep : Obligations.EraseStep := by
  intro s h ho hp hlat hmax
  obtain ⟨haligned, hin⟩ := h.page_operand (by simp [hp])
  have hrule : step s = fpErase (begun s) := by rw [h.step_programmer ho hp, programmerStep, begun_fp, hp]
  have herase := fpErase_next.mpr ⟨h.begun_idle ho (by rw [hp]; rfl), by simpa using haligned, by simpa using hin,
    hlat, by rw [begun_cfg]; exact hmax, rfl⟩
  refine ⟨_, hrule.trans herase, ?_, by simp [eraseResult], rfl, rfl, fun a => ?_⟩
  · rw [begun_cpuIe_of_span ho (by rw [hp]; rfl)]
    rfl
  · simp [eraseResult, Memory.read_writeList_replicate]

/-- Settles O43: each wait phase tests the controller's busy time after its decrement. -/
theorem waitPhases : Obligations.WaitPhases := by
  intro s h ho
  have hfree : ¬ nextBusy s → ¬ fcBusy (begun s) = true := mt fcBusy_begun.mp
  refine ⟨fun hw hb => ?busy, fun hp hb => ?erased, fun hp hb hlast => ?lastWord, fun hp hb hmore => ?nextWord,
    fun hp hb => ?committed⟩
  case busy =>
    rw [h.step_programmer ho rfl (by rintro h0; simp [h0, waitsForFlash] at hw)
      (by rintro h0; simp [h0, waitsForFlash] at hw)]
    exact programmerStep_of_busy (by rwa [begun_fp]) (fcBusy_begun.mpr hb)
  case erased =>
    rw [h.step_programmer ho hp, programmerStep, begun_fp, hp]
    exact if_neg (hfree hb)
  case lastWord =>
    rw [h.step_programmer ho hp, programmerStep, begun_fp, hp]
    exact (if_neg (hfree hb)).trans (if_pos (by simpa using hlast))
  case nextWord =>
    rw [h.step_programmer ho hp, programmerStep, begun_fp, hp, ← begun_fp s]
    exact (if_neg (hfree hb)).trans (if_neg (by simpa using hmore))
  case committed =>
    rw [h.step_programmer ho hp, programmerStep, begun_fp, hp]
    exact if_neg (hfree hb)

/-- Settles O44: FILL loads `fillWord`, and the intercept is the one case in which `captureVector` writes. -/
theorem fillStep : Obligations.FillStep := by
  intro s h ho hp hmax src w hsrc hw
  obtain ⟨hsize, -⟩ := pageSize_eq h.cfg
  have hidx := h.filling (.inl hp)
  have hrule : step s = fpFill (begun s) := by rw [h.step_programmer ho hp, programmerStep, begun_fp, hp]
  have hfill := fpFill_next.mpr
    ⟨h.begun_idle ho (by rw [hp]; rfl), by simp; omega, by rw [begun_cfg]; exact hmax, rfl⟩
  have hcase : interceptApplies (begun s) = true ↔ s.fp.kind = .fullPage ∧ s.fp.page = 0 ∧ s.fp.idx = 0 := by
    rw [interceptApplies_iff, PatchesVector, begun_fp, and_assoc]
  have hsource : srcWord (begun s) s.fp.idx = src := by rw [hsrc, srcWord_eq_ite, begun_fp, begun_frame]
  have hword : fillWord (begun s) = w := by simp only [fillWord, hcase, begun_fp, begun_cfg, hsource, hw]
  rw [hword] at hfill
  refine ⟨_, hrule.trans hfill, fun hc => ?_, fun hc => ?_, ?_, ?_, ?_, ?_, ?_, fun a ha ha' => ?_⟩
  · have ⟨_, _, hzero⟩ := hc
    rw [← hsource, hzero, ← begun_cfg s, captureVector, if_pos (hcase.mpr hc)]
    rfl
  · rw [captureVector, if_neg (mt hcase.mp hc)]
    rfl
  all_goals simp [fillResult, nextInput, Memory.read_writeList_leBytes, *]
  · rfl
  · rfl

/-- Settles O45: the page is erased and every word filled when COMMIT is reached. -/
theorem commitStep : Obligations.CommitStep := by
  intro s h ho hp hlat hmax
  have hb := h.begun ho
  obtain ⟨haligned, hin⟩ := h.page_operand (by simp [hp])
  obtain ⟨-, -, hfilled⟩ := hb.filled
  have hrule : step s = fpCommit (begun s) := by rw [h.step_programmer ho hp, programmerStep, begun_fp, hp]
  have hcommit := fpCommit_next.mpr ⟨h.begun_idle ho (by rw [hp]; rfl), by simpa using haligned, by simpa using hin,
    hb.erased (by rw [begun_fp, hp]; rfl), pageFilled_eq_true.mpr (hfilled (by rw [begun_fp, hp])), hlat,
    by rw [begun_cfg]; exact hmax, rfl⟩
  refine ⟨_, hrule.trans hcommit, rfl, rfl, rfl, fun a => ?_⟩
  simp [commitResult, Memory.read_writeList_readList]

/-- Settles O46: the controller is idle in RWW. -/
theorem rwwStep : Obligations.RwwStep := by
  intro s h ho hp
  rw [h.step_programmer ho hp, programmerStep, begun_fp, hp, ← begun_fp s]
  exact fpRww_next.mpr ⟨h.begun_idle ho (by rw [hp]; rfl), rfl⟩

/-! ## The block write's entry -/

/-- Settles O48: the guard of FP_START_BLOCK, and the block in the block register. -/
theorem blockStart : Obligations.BlockStart := by
  intro s a bytes
  refine ⟨fun hbad => if_pos hbad, fun hpos hlt hpage hflash =>
    ⟨_, fpStartBlock_next.mpr ⟨hpos, hlt, hpage, hflash, rfl⟩, rfl, fun j hj => ?_, fun j hj => ?_⟩⟩
  · simp [blockResult, Memory.read_writeList, hj]
  · simp [blockResult, Memory.read_writeList, hj]

/-- The page of the function-address slot is the last one below BOOT_START (42_flash_programmer.md R265). -/
theorem Config.funcAddr_sub {c : Config} (hw : c.wf = true) :
    c.funcAddr - (c.pageSize - 2) = c.bootStart - c.pageSize := by
  obtain ⟨hsize, -, -, -, -, hpos, -⟩ := Config.wf_iff.mp hw
  rw [Config.funcAddr, Config.ptrBytes]
  omega

/-- Settles O23: the slot is two bytes at the end of its page, so the block starts there. -/
theorem runCommand : Obligations.RunCommand := by
  intro s f hw
  obtain ⟨hsize, -⟩ := Config.wf_iff.mp hw
  have hoff := Config.funcAddr_mod hw
  have hstart : fpStartBlock s.cfg.funcAddr (leBytes s.sev) s = .next _ :=
    fpStartBlock_next.mpr ⟨by simp, by simpa using hsize, by rw [hoff, length_leBytes]; omega,
      Config.funcAddr_in_flash hw, rfl⟩
  refine ⟨_, andThen_next.mpr ⟨_, hstart, rfl⟩, ?_, ?_, ?_, fun a ha => ?_⟩
  · simp only [blockResult, hoff, Config.funcAddr_sub hw, length_leBytes]
  all_goals simp only [blockResult, Memory.read_writeList_leBytes]
  · rfl
  · rfl
  · rw [if_neg (by omega), if_neg (by omega)]

end Sys2Proof.Machine
end


section
/-! The page-zero vector invariant (42_flash_programmer.md R268): what a sequence keeps from one of its steps to the
next, and word 0 through the programmer's phases, the other rules and a reset. -/

namespace Sys2Proof.Machine

variable {s t : State}

/-! ## What a sequence keeps -/

/-- What decides the bytes of a sequence and where they go, which no step after READ changes. -/
structure SameSequence (s t : State) : Prop where
  cfg : t.cfg = s.cfg
  boot : t.boot = s.boot
  frame : t.frame = s.frame
  kind : t.fp.kind = s.fp.kind
  page : t.fp.page = s.fp.page
  m : t.fp.m = s.fp.m

theorem SameSequence.refl (s : State) : SameSequence s s := ⟨rfl, rfl, rfl, rfl, rfl, rfl⟩

theorem SameSequence.trans {u : State} (h : SameSequence s t) (h' : SameSequence t u) : SameSequence s u :=
  ⟨h'.cfg.trans h.cfg, h'.boot.trans h.boot, h'.frame.trans h.frame, h'.kind.trans h.kind, h'.page.trans h.page,
    h'.m.trans h.m⟩

theorem SameSequence.begun (s : State) : SameSequence s (begun s) := by
  constructor <;> simp

theorem SameSequence.sourceByte_eq (h : SameSequence s t) (i : Nat) : sourceByte t i = sourceByte s i := by
  rw [sourceByte, payloadByte, h.kind, h.frame, h.m]
  rfl

theorem SameSequence.srcWord_eq (h : SameSequence s t) (k : Nat) : srcWord t k = srcWord s k := by
  rw [Machine.srcWord_eq, Machine.srcWord_eq, h.sourceByte_eq, h.sourceByte_eq]

theorem SameSequence.pageByte_eq (h : SameSequence s t) (i : Nat) : pageByte t i = pageByte s i := by
  simp only [pageByte, PatchesVector, h.kind, h.page, h.cfg, h.sourceByte_eq]

/-- Of the programmer's phases only READ changes the source of a sequence (42_flash_programmer.md R252 to R262). -/
theorem SameSequence.programmerStep (hr : s.fp.phase ≠ .read) (h : programmerStep s = .next t) : SameSequence s t := by
  have hcases := programmerStep_next h
  simp only [fpErase_next, fpFill_next, fpCommit_next, fpRww_next] at hcases
  rcases hcases with ⟨-, rfl⟩ | ⟨hp, -⟩ | ⟨-, -, -, -, -, -, rfl⟩ | ⟨-, -, rfl⟩ | ⟨-, -, rfl⟩ | ⟨-, -, -, -, rfl⟩ |
    ⟨-, -, -, rfl⟩ | ⟨-, -, -, rfl⟩ | ⟨-, -, -, -, -, -, -, -, rfl⟩ | ⟨-, -, rfl⟩ | ⟨-, -, rfl⟩
  case inr.inl => exact absurd hp hr
  case inr.inr.inr.inr.inr.inl =>
    rw [captureVector_eq]
    exact ⟨rfl, rfl, rfl, rfl, rfl, rfl⟩
  all_goals exact ⟨rfl, rfl, rfl, rfl, rfl, rfl⟩

/-! ## The two forms of the invariant -/

/-- The bootloader jump is what the programmer is about to write at word 0: from the merge buffer, or already in the
page buffer. -/
def JumpPending (s : State) : Prop :=
  (s.fp.kind = .block → srcWord s 0 = s.cfg.bootJumpWord) ∧
  (s.fp.phase = .fill → 0 < s.fp.idx → le16 (s.fc.pb.read 0) (s.fc.pb.read 1) = s.cfg.bootJumpWord) ∧
  (s.fp.phase = .fillWait ∨ s.fp.phase = .commit → le16 (s.fc.pb.read 0) (s.fc.pb.read 1) = s.cfg.bootJumpWord)

/-- Between the erase and the commit of page 0 the invariant speaks of what will be written there. -/
theorem vectorKept_iff_jumpPending (h0 : s.fp.page = 0) (he : pageErased s.fp.phase = true) :
    VectorKept s ↔ JumpPending s :=
  have hi : s.fp.phase ≠ .idle := fun hi => by simp [hi, pageErased] at he
  iff_of_eq (if_pos ⟨hi, h0, he⟩)

theorem VectorKept.of_jumpPending (h0 : s.fp.page = 0) (he : pageErased s.fp.phase = true) (h : JumpPending s) :
    VectorKept s :=
  (vectorKept_iff_jumpPending h0 he).mpr h

/-- Otherwise it speaks of word 0, and before the erase of page 0 by a block write of the merge buffer too. -/
theorem vectorKept_of_written (hn : s.fp.page = 0 → pageErased s.fp.phase = false) :
    VectorKept s ↔ word0 s = s.cfg.bootJumpWord ∧
      (s.fp.phase = .erase → s.fp.page = 0 → s.fp.kind = .block → srcWord s 0 = s.cfg.bootJumpWord) :=
  iff_of_eq (if_neg fun ⟨_, h0, he⟩ => by rw [hn h0] at he; cases he)

theorem VectorKept.word0 (h : VectorKept s) (hn : s.fp.page = 0 → pageErased s.fp.phase = false) :
    word0 s = s.cfg.bootJumpWord :=
  ((vectorKept_of_written hn).mp h).1

theorem VectorKept.begun (h : VectorKept s) : VectorKept (begun s) := by
  simpa [VectorKept, Machine.word0, (SameSequence.begun s).srcWord_eq] using h

/-- The first word that a sequence puts in page 0 is the bootloader jump: patched, or the merge buffer's. -/
theorem le16_pageByte (h0 : s.fp.page = 0) (hsrc : s.fp.kind = .block → srcWord s 0 = s.cfg.bootJumpWord) :
    le16 (pageByte s 0) (pageByte s 1) = s.cfg.bootJumpWord := by
  cases hk : s.fp.kind with
  | fullPage => simp [pageByte, PatchesVector, hk, h0, leBytes]
  | block =>
    have hn : ¬ PatchesVector s := fun ⟨hfull, _⟩ => by simp [hk] at hfull
    rw [pageByte_of_not_patches hn, pageByte_of_not_patches hn, ← hsrc hk, srcWord_eq]

/-! ## The Flash Programmer -/

theorem word0_of_sameOutsidePage {p : Nat} (h : SameOutsidePage p s t) (hp : 2 ≤ p) : word0 t = word0 s := by
  rw [word0, word0, h 0 (.inl (by omega)), h 1 (.inl (by omega))]

/-- A page other than page 0 lies above word 0. -/
theorem Inv.two_le_page (h : Inv s) (hi : s.fp.phase ≠ .idle) (h0 : s.fp.page ≠ 0) : 2 ≤ s.fp.page := by
  obtain ⟨hsize, -⟩ := Config.wf_iff.mp h.cfg
  obtain ⟨haligned, -⟩ := h.page hi
  have := Nat.le_of_dvd (Nat.pos_of_ne_zero h0) (Nat.dvd_of_mod_eq_zero haligned)
  omega

/-- READ: the block lies at the end of its page, so the merge buffer has the page's first word (R264, R265). -/
theorem VectorKept.readResult (h : Inv s) (hv : VectorKept s) (hp : s.fp.phase = .read) :
    VectorKept (readResult s) := by
  obtain ⟨-, hoff, -⟩ := h.slot (by simp [hp]) (h.reading hp)
  obtain ⟨heven, hsize⟩ := pageSize_eq h.cfg
  have hword := hv.word0 fun _ => by rw [hp]; rfl
  refine (vectorKept_of_written fun _ => rfl).mpr ⟨hword, fun _ h0 hk => ?_⟩
  have hzero : s.fp.page = 0 := h0
  have hpos : 2 ≤ s.fp.blkOff := by omega
  rw [srcWord_eq, sourceByte_block hk, sourceByte_block hk, read_readResult_m s (by omega),
    read_readResult_m s (by omega), if_neg (by omega), if_neg (by omega), hzero]
  exact hword

/-- ERASE of page 0: what the programmer is about to write stands in for word 0 (R252). -/
theorem VectorKept.fpErase (hv : VectorKept s) (hp : s.fp.phase = .erase) (h0 : s.fp.page = 0)
    (ht : fpErase s = .next t) : VectorKept t := by
  obtain ⟨-, -, -, -, -, rfl⟩ := fpErase_next.mp ht
  obtain ⟨-, hsrc⟩ := (vectorKept_of_written fun _ => by rw [hp]; rfl).mp hv
  exact .of_jumpPending h0 rfl ⟨hsrc hp h0, nofun, nofun⟩

/-- FILL in page 0: word 0 of the page buffer becomes the jump, and a later word leaves it (R255, R256). -/
theorem VectorKept.fpFill (hv : VectorKept s) (hp : s.fp.phase = .fill) (h0 : s.fp.page = 0)
    (ht : fpFill s = .next t) : VectorKept t := by
  obtain ⟨-, -, -, rfl⟩ := fpFill_next.mp ht
  obtain ⟨hsrc, hlater, -⟩ := (vectorKept_iff_jumpPending h0 (by rw [hp]; rfl)).mp hv
  rw [captureVector_eq]
  refine .of_jumpPending h0 rfl ⟨hsrc, nofun, fun _ => ?_⟩
  simp only [fillResult, read_writeList_fillWord]
  by_cases hidx : s.fp.idx = 0
  · simpa [hidx] using le16_pageByte h0 hsrc
  · rw [if_neg (by omega), if_neg (by omega)]
    exact hlater hp (Nat.pos_of_ne_zero hidx)

/-- COMMIT of page 0: word 0 is what the page buffer holds (R258). -/
theorem VectorKept.fpCommit (h : Inv s) (hv : VectorKept s) (hp : s.fp.phase = .commit) (h0 : s.fp.page = 0)
    (ht : fpCommit s = .next t) : VectorKept t := by
  obtain ⟨-, -, -, -, -, -, -, rfl⟩ := fpCommit_next.mp ht
  obtain ⟨-, -, hbuffer⟩ := (vectorKept_iff_jumpPending h0 (by rw [hp]; rfl)).mp hv
  obtain ⟨hsize, -⟩ := Config.wf_iff.mp h.cfg
  refine (vectorKept_of_written fun _ => rfl).mpr ⟨?_, nofun⟩
  simp only [Machine.word0, commitResult, Memory.read_writeList_readList, h0]
  rw [if_pos (by omega), if_pos (by omega)]
  exact hbuffer (.inr hp)

/-- A sequence on page 0. -/
theorem VectorKept.programmerStep_page_zero (h : Inv s) (hv : VectorKept s) (h0 : s.fp.page = 0)
    (hr : s.fp.phase ≠ .read) (ht : programmerStep s = .next t) : VectorKept t := by
  have pending := fun he => (vectorKept_iff_jumpPending h0 he).mp hv
  rcases programmerStep_next ht with ⟨-, rfl⟩ | ⟨hp, -⟩ | ⟨hp, ht⟩ | ⟨-, -, rfl⟩ | ⟨hp, -, rfl⟩ | ⟨hp, ht⟩ |
    ⟨hp, -, -, rfl⟩ | ⟨hp, -, -, rfl⟩ | ⟨hp, ht⟩ | ⟨hp, -, rfl⟩ | ⟨hp, ht⟩
  · exact hv
  · exact absurd hp hr
  · exact hv.fpErase hp h0 ht
  · exact hv
  · obtain ⟨hsrc, -, -⟩ := pending (by rw [hp]; rfl)
    exact .of_jumpPending h0 rfl ⟨hsrc, nofun, nofun⟩
  · exact hv.fpFill hp h0 ht
  · obtain ⟨hsrc, -, hbuffer⟩ := pending (by rw [hp]; rfl)
    exact .of_jumpPending h0 rfl ⟨hsrc, nofun, fun _ => hbuffer (.inl hp)⟩
  · obtain ⟨hsrc, -, hbuffer⟩ := pending (by rw [hp]; rfl)
    exact .of_jumpPending h0 rfl ⟨hsrc, fun _ _ => hbuffer (.inl hp), nofun⟩
  · exact hv.fpCommit h hp h0 ht
  · exact (vectorKept_of_written fun _ => rfl).mpr ⟨hv.word0 fun _ => by rw [hp]; rfl, nofun⟩
  · obtain ⟨-, rfl⟩ := fpRww_next.mp ht
    exact (vectorKept_of_written fun _ => rfl).mpr ⟨hv.word0 fun _ => by rw [hp]; rfl, nofun⟩

/-- A sequence on another page leaves word 0 alone. -/
theorem VectorKept.programmerStep_other_page (h : Inv s) (hv : VectorKept s) (h0 : s.fp.page ≠ 0)
    (hr : s.fp.phase ≠ .read) (ht : programmerStep s = .next t) : VectorKept t := by
  have same := SameSequence.programmerStep hr ht
  have hne : t.fp.page ≠ 0 := by rwa [same.page]
  have hword : Machine.word0 t = Machine.word0 s := by
    rcases programmerStep_flash ht with hkept | ⟨hp, hpage⟩
    · rw [Machine.word0, hkept]
      rfl
    · exact word0_of_sameOutsidePage hpage (h.two_le_page (by rcases hp with hp | hp <;> simp [hp]) h0)
  refine (vectorKept_of_written fun hz => absurd hz hne).mpr ⟨?_, fun _ hz => absurd hz hne⟩
  rw [hword, same.cfg]
  exact hv.word0 fun hz => absurd hz h0

theorem VectorKept.programmerStep (h : Inv s) (hv : VectorKept s) (ht : programmerStep s = .next t) :
    VectorKept t := by
  by_cases hr : s.fp.phase = .read
  · rw [Machine.programmerStep, hr] at ht
    obtain ⟨-, -, -, rfl⟩ := fpRead_next.mp ht
    exact hv.readResult h hr
  · by_cases h0 : s.fp.page = 0
    · exact hv.programmerStep_page_zero h h0 hr ht
    · exact hv.programmerStep_other_page h h0 hr ht

/-! ## The other rules -/

/-- A rule that is not the programmer's ends a sequence, starts one with READ or as a full page program, or leaves the
programmer as it is. -/
structure StartsAtMost (s t : State) : Prop where
  cfg : t.cfg = s.cfg
  fp : t.fp = s.fp ∨ t.fp.phase = .idle ∨ t.fp.phase = .read ∨ (t.fp.phase = .erase ∧ t.fp.kind = .fullPage)

theorem decoderStep_fp (s : State) : (decoderStep s).fp = s.fp := by
  unfold decoderStep
  split
  next => rfl
  next => unfold decSyncFirst; split <;> rfl
  next => unfold decSyncMeas; simp only; split_ifs <;> rfl
  next => unfold decStartSample; split_ifs <;> rfl
  next => unfold decStartEdge; split <;> rfl
  next => unfold decDataEdge; split <;> rfl
  next => unfold decDataSample frameComplete; simp only; split_ifs <;> rfl

theorem StartsAtMost.waitSignalStep (h : waitSignalStep s = .next t) : StartsAtMost s t := by
  rcases waitSignalStep_next h with ht | ⟨-, rfl | ⟨-, rfl⟩ | rfl⟩
  · obtain ⟨-, -, -, rfl⟩ := handoff_next.mp ht
    exact ⟨rfl, .inr (.inl rfl)⟩
  all_goals exact ⟨rfl, .inl rfl⟩

theorem StartsAtMost.errorHangStep (s : State) : StartsAtMost s (errorHangStep s) := by
  unfold Machine.errorHangStep
  split <;> exact ⟨rfl, .inl rfl⟩

theorem StartsAtMost.exec {i : Instr} (h : exec i s = .next t) : StartsAtMost s t := by
  rcases exec_next h with rfl | ⟨f, -, rfl⟩ | rfl | ⟨f, ⟨⟩⟩
  · exact ⟨rfl, .inl rfl⟩
  · exact ⟨rfl, .inr (.inr (.inr ⟨rfl, rfl⟩))⟩
  · exact ⟨rfl, .inr (.inr (.inl rfl))⟩
  · exact ⟨rfl, .inl rfl⟩

theorem StartsAtMost.eeWriteStep (h : eeWriteStep s = .next t) : StartsAtMost s t := by
  unfold Machine.eeWriteStep at h
  split at h
  · cases h
    exact ⟨rfl, .inl rfl⟩
  · obtain ⟨-, -, -, rfl⟩ := handoff_next.mp h
    exact ⟨rfl, .inr (.inl rfl)⟩

theorem controllerStep_programmer_or_starts (h : controllerStep s = .next t) :
    programmerStep s = .next t ∨ StartsAtMost s t := by
  unfold controllerStep at h
  split at h
  next => exact .inr (.waitSignalStep h)
  next =>
    unfold listeningStep at h
    split at h
    next =>
      cases h
      exact .inr ⟨(decoderStep_cfg_env s).1, .inl (decoderStep_fp s)⟩
    next =>
      split at h
      next => exact .inr (.exec h)
      next => cases h
    next =>
      rcases progWaitStep_next h with ⟨-, rfl⟩ | ht
      · exact .inr ⟨rfl, .inr (.inl rfl)⟩
      · exact .inl ht
    next =>
      rcases runWaitStep_next h with ⟨-, rfl⟩ | ht
      · exact .inr ⟨rfl, .inr (.inl rfl)⟩
      · exact .inl ht
    next => exact .inr (.eeWriteStep h)
  next => cases h; exact .inr (.errorHangStep s)
  next => cases h; exact .inr ⟨rfl, .inl rfl⟩

/-- Without a sequence word 0 is the jump, and such a rule leaves it so. -/
theorem VectorKept.of_starts (hv : VectorKept s) (hp : s.fp.phase = .idle ∨ s.fp.phase = .done)
    (hs : StartsAtMost s t) (hfc : t.fc = s.fc) : VectorKept t := by
  have hnone : pageErased s.fp.phase = false := by rcases hp with hp | hp <;> rw [hp] <;> rfl
  have hword : Machine.word0 t = t.cfg.bootJumpWord := by
    rw [Machine.word0, hfc, hs.cfg]
    exact hv.word0 fun _ => hnone
  rcases hs.fp with hsame | hidle | hread | ⟨herase, hkind⟩
  · refine (vectorKept_of_written fun _ => by rw [hsame, hnone]).mpr ⟨hword, fun he => ?_⟩
    rcases hp with hp | hp <;> simp [hsame, hp] at he
  · exact (vectorKept_of_written fun _ => by rw [hidle]; rfl).mpr ⟨hword, fun he => by simp [hidle] at he⟩
  · exact (vectorKept_of_written fun _ => by rw [hread]; rfl).mpr ⟨hword, fun he => by simp [hread] at he⟩
  · exact (vectorKept_of_written fun _ => by rw [herase]; rfl).mpr ⟨hword, fun _ _ hb => by simp [hkind] at hb⟩

/-! ## The step -/

theorem VectorKept.ordinary (h : Inv s) (hv : VectorKept s) (ho : Ordinary s) (ht : step s = .next t) :
    VectorKept t := by
  have programmer : Machine.programmerStep (Machine.begun s) = .next t → VectorKept t :=
    hv.begun.programmerStep (h.begun ho)
  by_cases hp : s.fp.phase = .idle ∨ s.fp.phase = .done
  · have hrule := (step_of_ordinary ho).symm.trans ht
    rcases controllerStep_programmer_or_starts hrule with hprog | hs
    · exact programmer hprog
    · rcases controllerStep_programmer_or_fc hrule with hprog | hfc
      · exact programmer hprog
      · exact hv.begun.of_starts (by rwa [begun_fp]) hs hfc
  · rw [not_or] at hp
    exact programmer ((h.step_programmer ho rfl hp.1 hp.2).symm.trans ht)

/-- Both branches of the power-on decision leave the programmer idle (43_boot_controller.md R300). -/
theorem resetStep_idle (h : resetStep s = .next t) : t.cfg = s.cfg ∧ t.fp.phase = .idle := by
  unfold resetStep at h
  split at h
  · obtain ⟨-, -, -, rfl⟩ := handoff_next.mp h
    exact ⟨rfl, rfl⟩
  · cases h
    exact ⟨rfl, rfl⟩

/-- A reset that interrupts no sequence on page 0 leaves word 0 as it is (20_memory.md R92). -/
theorem VectorKept.reset (h : Inv s) (hv : VectorKept s) (hrst : (nextInput s).rst = true) (ht : step s = .next t)
    (hr : resetStep (Machine.begun s) = .next t) (hn : s.fp.page = 0 → s.fp.phase = .idle ∨ s.fp.phase = .done) :
    VectorKept t := by
  obtain ⟨hcfg, hidle⟩ := resetStep_idle hr
  obtain ⟨hkept, hpage⟩ := resetKeepsOtherPages s t hrst ht
  have hword : Machine.word0 t = Machine.word0 s := by
    by_cases hp : s.fp.phase = .idle ∨ s.fp.phase = .done
    · rw [Machine.word0, hkept hp]
      rfl
    · exact word0_of_sameOutsidePage hpage (h.two_le_page (fun hi => hp (.inl hi)) fun h0 => hp (hn h0))
  refine (vectorKept_of_written fun _ => by rw [hidle]; rfl).mpr ⟨?_, fun he => by simp [hidle] at he⟩
  rw [hword, hcfg, begun_cfg]
  exact hv.word0 fun h0 => by rcases hn h0 with hp | hp <;> rw [hp] <;> rfl

/-- Settles O54: the programmer's step keeps the invariant phase by phase, every other rule starts a sequence at most,
and a reset interrupts none on page 0. -/
theorem vectorInvariant : Obligations.VectorInvariant := by
  intro s t h hv ht hn
  obtain ⟨hok, ⟨hrst, hr⟩ | ⟨hrst, -⟩⟩ := step_next.mp ht
  · exact hv.reset h hrst ht hr (hn hrst)
  · exact hv.ordinary h ⟨hok, hrst⟩ ht

end Sys2Proof.Machine
end


section
/-! A sequence from its ERASE to DONE (42_flash_programmer.md R252 to R268): the bytes it loads, writes and leaves
alone, the saved vector, and the interrupt enable. -/

namespace Sys2Proof.Machine

variable {s t u : State}

/-! ## The invariant of a sequence -/

/-- How many bytes of the page buffer hold the sequence's data. -/
def loadedBytes (s : State) : Nat :=
  match s.fp.phase with
  | .fill => 2 * s.fp.idx
  | .fillWait => 2 * (s.fp.idx + 1)
  | .commit => s.cfg.pageSize
  | _ => 0

theorem loadedBytes_fill (hp : s.fp.phase = .fill) : loadedBytes s = 2 * s.fp.idx := by rw [loadedBytes, hp]

theorem loadedBytes_fillWait (hp : s.fp.phase = .fillWait) : loadedBytes s = 2 * (s.fp.idx + 1) := by
  rw [loadedBytes, hp]

theorem loadedBytes_commit (hp : s.fp.phase = .commit) : loadedBytes s = s.cfg.pageSize := by rw [loadedBytes, hp]

/-- The phases after the commit (42_flash_programmer.md R258 to R261). -/
def pageWritten : FpPhase → Bool
  | .commitWait | .rww | .done => true
  | .idle | .read | .erase | .eraseWait | .fill | .fillWait | .commit => false

/-- `t` is in the sequence that `s`, in ERASE, is about to begin. -/
structure Programming (s t : State) : Prop where
  same : SameSequence s t
  phase : t.fp.phase ≠ .idle ∧ t.fp.phase ≠ .read
  outside : SameOutsidePage s.fp.page s t
  loaded : ∀ i < loadedBytes t, t.fc.pb.read i = pageByte s i
  written : pageWritten t.fp.phase = true → ∀ i < s.cfg.pageSize, t.fc.flash.read (s.fp.page + i) = pageByte s i
  captured : PatchesVector s → 0 < loadedBytes t ∨ pageWritten t.fp.phase = true →
    t.sev = jumpTarget s.cfg (srcWord s 0)
  sevKept : ¬ PatchesVector s → t.sev = s.sev ∧ t.sevValid = s.sevValid
  unmasked : t.fp.phase = .erase ∨ t.fp.phase = .done → t.cpuIe = s.cpuIe
  saved : interruptsMasked t.fp.phase = true → t.fp.savedIe = s.cpuIe

theorem Programming.of_erase (hp : s.fp.phase = .erase) : Programming s s where
  same := .refl s
  phase := by simp [hp]
  outside := .of_flash_eq rfl
  loaded := by simp [loadedBytes, hp]
  written := by simp [hp, pageWritten]
  captured := by simp [loadedBytes, hp, pageWritten]
  sevKept _ := ⟨rfl, rfl⟩
  unmasked _ := rfl
  saved := by simp [hp, interruptsMasked]

theorem loadedBytes_begun (s : State) : loadedBytes (begun s) = loadedBytes s := by
  simp [loadedBytes]

/-- The front of a step, while the CPU leaves its interrupt enable alone. -/
theorem Programming.begun (h : Programming s t) (ho : Ordinary t) (hd : t.fp.phase ≠ .done) :
    Programming s (begun t) where
  same := h.same.trans (.begun t)
  phase := by simpa using h.phase
  outside := by simpa [SameOutsidePage] using h.outside
  loaded := by simpa [loadedBytes_begun] using h.loaded
  written := by simpa using h.written
  captured := by simpa [loadedBytes_begun] using h.captured
  sevKept := by simpa using h.sevKept
  unmasked hp := by
    rw [begun_fp] at hp
    have he := hp.resolve_right hd
    rw [begun_cpuIe_of_span ho (by rw [he]; rfl)]
    exact h.unmasked hp
  saved := by simpa using h.saved

/-! ## The phases -/

theorem SameOutsidePage.trans {p : Nat} (h : SameOutsidePage p s t) (hc : t.cfg = s.cfg)
    (h' : SameOutsidePage p t u) : SameOutsidePage p s u :=
  fun a ha => (h' a (by rwa [hc])).trans (h a ha)

/-- The programmer moves on inside the critical section and leaves the flash controller as it is (R253, R257, R259). -/
theorem Programming.move (h : Programming s t) (hm : interruptsMasked t.fp.phase = true) {p : FpPhase}
    (hp : interruptsMasked p = true) {i : Nat} (hload : loadedBytes { t with fp.phase := p, fp.idx := i } ≤ loadedBytes t)
    (hwritten : pageWritten p = pageWritten t.fp.phase) : Programming s { t with fp.phase := p, fp.idx := i } where
  same := { h.same with }
  phase := ⟨(by rintro ⟨⟩; cases hp), (by rintro ⟨⟩; cases hp)⟩
  outside := h.outside
  loaded i hi := h.loaded i (hi.trans_le hload)
  written hw := h.written (hwritten.symm.trans hw)
  captured hpatch hor := h.captured hpatch (hor.imp hload.trans_lt' hwritten.symm.trans)
  sevKept := h.sevKept
  unmasked := by rintro (⟨⟨⟩⟩ | ⟨⟨⟩⟩) <;> cases hp
  saved _ := h.saved hm

/-- ERASE saves the interrupt enable (R252). -/
theorem Programming.fpErase (h : Programming s t) (hp : t.fp.phase = .erase) (ht : fpErase t = .next u) :
    Programming s u := by
  obtain ⟨-, -, -, -, -, rfl⟩ := fpErase_next.mp ht
  exact
    { same := { h.same with }
      phase := ⟨nofun, nofun⟩
      outside := h.outside.trans h.same.cfg (h.same.page ▸ .of_writeList rfl List.length_replicate)
      loaded := nofun
      written := nofun
      captured := fun _ hor => by simp [loadedBytes, pageWritten] at hor
      sevKept := h.sevKept
      unmasked := nofun
      saved := fun _ => h.unmasked (.inl hp) }

/-- FILL captures the vector with the first word of a patched page, and in no other case (R256). -/
theorem Programming.captureVector_sev (h : Programming s t) (hp : t.fp.phase = .fill) :
    (PatchesVector s → (captureVector t).sev = jumpTarget s.cfg (srcWord s 0)) ∧
    (¬ PatchesVector s → (captureVector t).sev = s.sev ∧ (captureVector t).sevValid = s.sevValid) := by
  have hpatch : PatchesVector t ↔ PatchesVector s := by rw [PatchesVector, h.same.kind, h.same.page]
  unfold captureVector
  split
  next hi =>
    obtain ⟨hyes, -⟩ := interceptApplies_iff.mp hi
    refine ⟨fun _ => ?_, fun hn => absurd (hpatch.mp hyes) hn⟩
    rw [← h.same.cfg, ← h.same.srcWord_eq]
  next hi =>
    refine ⟨fun hs => h.captured hs (.inl ?_), h.sevKept⟩
    have hidx : t.fp.idx ≠ 0 := fun h0 => hi (interceptApplies_iff.mpr ⟨hpatch.mpr hs, h0⟩)
    rw [loadedBytes_fill hp]
    omega

/-- FILL loads the next two bytes (R255). -/
theorem Programming.fpFill (h : Programming s t) (hp : t.fp.phase = .fill) (ht : fpFill t = .next u) :
    Programming s u := by
  obtain ⟨-, -, -, rfl⟩ := fpFill_next.mp ht
  obtain ⟨hcaptured, hkept⟩ := h.captureVector_sev hp
  have hload := loadedBytes_fill hp
  rw [captureVector_eq]
  exact
    { same := { h.same with }
      phase := ⟨nofun, nofun⟩
      outside := h.outside
      loaded := fun i (hi : i < 2 * (t.fp.idx + 1)) => by
        simp only [fillResult, read_writeList_fillWord, h.same.pageByte_eq]
        split
        · rfl
        · exact h.loaded i (by omega)
      written := nofun
      captured := fun hs _ => hcaptured hs
      sevKept := hkept
      unmasked := nofun
      saved := fun _ => h.saved (by rw [hp]; rfl) }

/-- COMMIT writes the loaded page (R258). -/
theorem Programming.fpCommit (h : Programming s t) (hp : t.fp.phase = .commit) (hw : t.cfg.wf = true)
    (ht : fpCommit t = .next u) : Programming s u := by
  obtain ⟨-, -, -, -, -, -, -, rfl⟩ := fpCommit_next.mp ht
  have hload := loadedBytes_commit hp
  obtain ⟨hsize, -⟩ := Config.wf_iff.mp hw
  exact
    { same := { h.same with }
      phase := ⟨nofun, nofun⟩
      outside := h.outside.trans h.same.cfg (h.same.page ▸ .of_writeList rfl (Memory.length_readList ..))
      loaded := nofun
      written := fun _ i hi => by
        rw [← h.same.cfg] at hi
        simp only [commitResult, Memory.read_writeList_readList, h.same.page]
        rw [if_pos (by omega), Nat.zero_add, Nat.add_sub_cancel_left]
        exact h.loaded i (by omega)
      captured := fun hs _ => h.captured hs (.inl (by omega))
      sevKept := h.sevKept
      unmasked := nofun
      saved := fun _ => h.saved (by rw [hp]; rfl) }

/-- RWW restores the interrupt enable (R260, R262). -/
theorem Programming.fpRww (h : Programming s t) (hp : t.fp.phase = .rww) (ht : fpRww t = .next u) :
    Programming s u := by
  obtain ⟨-, rfl⟩ := fpRww_next.mp ht
  exact
    { same := { h.same with }
      phase := ⟨nofun, nofun⟩
      outside := h.outside
      loaded := nofun
      written := fun _ => h.written (by rw [hp]; rfl)
      captured := fun hs _ => h.captured hs (.inr (by rw [hp]; rfl))
      sevKept := h.sevKept
      unmasked := fun _ => h.saved (by rw [hp]; rfl)
      saved := nofun }

theorem Programming.programmerStep (h : Programming s t) (hw : t.cfg.wf = true) (hd : t.fp.phase ≠ .done)
    (ht : programmerStep t = .next u) : Programming s u := by
  obtain ⟨hidle, hread⟩ := h.phase
  obtain ⟨hsize, -⟩ := pageSize_eq hw
  rcases programmerStep_next ht with ⟨hp | hp, -⟩ | ⟨hp, -⟩ | ⟨hp, ht⟩ | ⟨-, -, rfl⟩ | ⟨hp, -, rfl⟩ | ⟨hp, ht⟩ |
    ⟨hp, -, hlast, rfl⟩ | ⟨hp, -, -, rfl⟩ | ⟨hp, ht⟩ | ⟨hp, -, rfl⟩ | ⟨hp, ht⟩
  · exact absurd hp hidle
  · exact absurd hp hd
  · exact absurd hp hread
  · exact h.fpErase hp ht
  · exact h
  · exact h.move (p := .fill) (by rw [hp]; rfl) rfl (Nat.zero_le _) (by rw [hp]; rfl)
  · exact h.fpFill hp ht
  · exact h.move (p := .commit) (by rw [hp]; rfl) rfl (by rw [loadedBytes_fillWait hp, hlast, ← hsize]; exact le_rfl)
      (by rw [hp]; rfl)
  · exact h.move (p := .fill) (by rw [hp]; rfl) rfl (by rw [loadedBytes_fillWait hp]; exact le_rfl) (by rw [hp]; rfl)
  · exact h.fpCommit hp hw ht
  · exact h.move (p := .rww) (by rw [hp]; rfl) rfl (Nat.zero_le _) (by rw [hp]; rfl)
  · exact h.fpRww hp ht

/-! ## The run -/

theorem Ordinary.of_step (hrst : (nextInput s).rst = false) (ht : step s = .next t) : Ordinary s :=
  ⟨(step_next.mp ht).1, hrst⟩

theorem Ordinary.cfg_wf (h : Ordinary s) : s.cfg.wf = true := by
  simpa using cfg_wf_of_stepRefusal h.1

/-- A sequence that has moved on began with a step. -/
theorem SequenceRun.head (h : SequenceRun s t) :
    t = s ∨ ∃ v, Ordinary s ∧ Machine.step s = .next v ∧ SequenceRun v t := by
  induction h with
  | start => exact .inl rfl
  | step t u hrun hne hrst hstep ih =>
    rcases ih with rfl | ⟨v, ho, hv, hrest⟩
    · exact .inr ⟨u, .of_step hrst hstep, hstep, .start⟩
    · exact .inr ⟨v, ho, hv, .step t u hrest hne hrst hstep⟩

theorem Programming.of_run (hb : AwaitsProgrammer s) (hp : s.fp.phase = .erase) (h : SequenceRun s t) :
    Programming s t := by
  induction h with
  | start => exact .of_erase hp
  | step t u _ hd hrst hstep ih =>
    have ho := Ordinary.of_step hrst hstep
    have hb' : AwaitsProgrammer t := by rw [AwaitsProgrammer, ih.same.boot]; exact hb
    exact (ih.begun ho hd).programmerStep (by rw [begun_cfg]; exact ho.cfg_wf) (by rwa [begun_fp])
      ((hb'.step_eq ho hd).symm.trans hstep)

/-- A sequence that is DONE made its first step under a well-formed configuration. -/
theorem SequenceRun.cfg_wf (h : SequenceRun s t) (hp : s.fp.phase ≠ .done) (hd : t.fp.phase = .done) :
    s.cfg.wf = true := by
  rcases h.head with rfl | ⟨v, ho, -⟩
  · exact absurd hd hp
  · exact ho.cfg_wf

/-! ## The obligations -/

/-- A full page program takes its bytes from the payload. -/
theorem sourceByte_fpStartFull (s : State) (p i : Nat) : sourceByte (fpStartFull p s) i = s.frame.read (7 + i) := rfl

/-- Settles O49: the page is programmed with the payload, patched in its first word. -/
theorem pageZeroProgram : Obligations.PageZeroProgram := by
  intro s t hb hl hrun hd
  have h := Programming.of_run (s := fpStartFull 0 s) ⟨hb, .inl hl⟩ rfl hrun
  have hdone : pageWritten t.fp.phase = true := by rw [hd]; rfl
  obtain ⟨hsize, -⟩ : 2 < s.cfg.pageSize ∧ _ := Config.wf_iff.mp (hrun.cfg_wf nofun hd)
  have hwritten : ∀ i < s.cfg.pageSize, t.fc.flash.read i = pageByte (fpStartFull 0 s) i := fun i hi => by
    simpa using h.written hdone i hi
  refine ⟨?_, ?_, fun i hi hlt => ?_, h.outside⟩
  · rw [h.captured ⟨rfl, rfl⟩ (.inr hdone), srcWord_eq]
    rfl
  · rw [word0, hwritten 0 (by omega), hwritten 1 (by omega)]
    exact le16_pageByte rfl nofun
  · rw [hwritten i hlt, pageByte_of_two_le hi, sourceByte_fpStartFull]

/-- Settles O50: the page is programmed with the payload as it stands. -/
theorem otherPageProgram : Obligations.OtherPageProgram := by
  intro s t p hb hl hp hrun hd
  have h := Programming.of_run (s := fpStartFull p s) ⟨hb, .inl hl⟩ rfl hrun
  have hpatch : ¬ PatchesVector (fpStartFull p s) := fun ⟨_, hzero⟩ => hp hzero
  obtain ⟨hsev, hvalid⟩ := h.sevKept hpatch
  refine ⟨hsev, hvalid, fun i hi => ?_, h.outside⟩
  rw [← sourceByte_fpStartFull s p, ← pageByte_of_not_patches hpatch]
  exact h.written (by rw [hd]; rfl) i hi

/-- A block write takes its bytes from the block in its range, and from the page elsewhere. -/
theorem pageByte_of_block (s : State) (a : Nat) (bytes : List Byte) {i : Nat} (hi : i < s.cfg.pageSize) :
    pageByte (readResult (begun (blockResult a bytes s))) i =
      if a % s.cfg.pageSize ≤ i ∧ i < a % s.cfg.pageSize + bytes.length then bytes.getD (i - a % s.cfg.pageSize) 0#8
      else s.fc.flash.read (a - a % s.cfg.pageSize + i) := by
  have hkind : (readResult (begun (blockResult a bytes s))).fp.kind = .block := by
    simp [readResult, blockResult]
  rw [pageByte_of_not_patches (fun ⟨hfull, _⟩ => by rw [hkind] at hfull; cases hfull), sourceByte_block hkind,
    read_readResult_m _ (by simpa [blockResult] using hi)]
  simp only [begun_fp, begun_fc, blockResult, Memory.read_writeList, Nat.zero_le, true_and, Nat.zero_add, Nat.sub_zero]
  refine if_ctx_congr Iff.rfl (fun h => if_pos (by omega)) fun _ => rfl

/-- Settles O51: READ merges the block into the page's bytes, and the sequence from there writes them. -/
theorem blockRoundTrip : Obligations.BlockRoundTrip := by
  intro s u t a bytes hb hl hstart hrun hd
  obtain ⟨-, -, hfits, -, rfl⟩ := fpStartBlock_next.mp hstart
  rcases hrun.head with rfl | ⟨v, ho, hread, hrest⟩
  · cases hd
  have hawaits : AwaitsProgrammer (blockResult a bytes s) := ⟨hb, .inr hl⟩
  rw [hawaits.step_eq ho nofun, programmerStep, begun_fp] at hread
  obtain ⟨-, -, -, rfl⟩ := fpRead_next.mp hread
  have h := Programming.of_run (by simpa [AwaitsProgrammer, readResult] using hawaits) rfl hrest
  have hpage : (readResult (begun (blockResult a bytes s))).fp.page = a - a % s.cfg.pageSize := by
    simp [readResult, blockResult]
  have hwritten : ∀ i < s.cfg.pageSize, t.fc.flash.read (a - a % s.cfg.pageSize + i) = _ := fun i hi =>
    (hpage ▸ h.written (by rw [hd]; rfl) i (by simpa [readResult, blockResult] using hi)).trans
      (pageByte_of_block s a bytes hi)
  have hstarts : a % s.cfg.pageSize ≤ a := Nat.mod_le ..
  refine ⟨fun j hj => ?_, fun i hi hout => ?_, ?_⟩
  · have hoff : a + j = a - a % s.cfg.pageSize + (a % s.cfg.pageSize + j) := by omega
    rw [hoff, hwritten _ (by omega), if_pos (by omega), Nat.add_sub_cancel_left]
  · replace hout : a - a % s.cfg.pageSize + i < a ∨ a + bytes.length ≤ a - a % s.cfg.pageSize + i := hout
    exact (hwritten i hi).trans (if_neg (by omega))
  · simpa [SameOutsidePage, readResult, blockResult] using h.outside

/-- Settles O52: ERASE saves the enable bit and RWW restores it, with no write between them. -/
theorem interruptEnableRestored : Obligations.InterruptEnableRestored := by
  intro s t hb hl hp hrun hd
  exact (Programming.of_run ⟨hb, hl⟩ hp hrun).unmasked (.inr hd)

end Sys2Proof.Machine
end

section
/-! The reset step and the states of the Boot Controller (43_boot_controller.md R300 to R309): the power-on decision,
which rule a step of each state is, and the transitions of `boot_state`. -/

namespace Sys2Proof.Machine

variable {s t : State}

/-! ## The hand-off -/

/-- Under a well-formed configuration the slot lies in FLASH, so the hand-off is made while the CPU may fetch
(43_boot_controller.md R306). -/
theorem handoff_of_fetchLegal (hw : s.cfg.wf = true) (hf : FetchLegal s) (cause : AppCause) :
    handoff cause s = .next (handoffResult cause s) :=
  handoff_next.mpr ⟨hf.2, hf.1, Config.funcAddr_in_flash hw, rfl⟩

/-- Where the decoder and the programmer are idle, the hand-off writes the Boot Controller's registers only. -/
theorem handoffResult_of_idle (hd : s.dec.phase = .idle) (hp : s.fp.phase = .idle) (cause : AppCause) :
    handoffResult cause s =
      { s with boot.bootState := .runApplication, boot.appCause := cause, boot.appEntry := slotValue s } := by
  rw [handoffResult, ← hd, ← hp]

/-! ## The reset step -/

theorem stepRefusal_of_reset (hw : s.cfg.wf = true) (hr : s.env.inp.rst = true) : stepRefusal s = none := by
  simp [stepRefusal, hw, hr]

/-- A reset overrides every rule, and needs a well-formed configuration only (60_exceptions.md R346). -/
theorem step_of_reset (hw : s.cfg.wf = true) (hr : (nextInput s).rst = true) :
    step s = resetStep (begun s) := by
  have hfront : stepRefusal (sampleInputs s) = none := stepRefusal_of_reset (by simpa using hw) hr
  rw [nextInput] at hr
  simp [step, hfront, hr]

theorem resetStep_of_no_skip (hs : s.env.inp.skipIn = false) : resetStep s = .next (resetRegisters s) := by
  simp [resetStep, hs]

/-- A reset leaves the controller idle with flash reads enabled, so a skip can read the slot. -/
theorem resetStep_of_skip (hw : s.cfg.wf = true) (hs : s.env.inp.skipIn = true) :
    resetStep s = .next (handoffResult .skip (resetRegisters s)) :=
  (if_pos hs).trans (handoff_of_fetchLegal (s := resetRegisters s) hw ⟨rfl, rfl⟩ .skip)

/-- Settles O9: the two branches of the reset step, each from the reset's registers. -/
theorem powerOnDecision : Obligations.PowerOnDecision := by
  intro s hw hr
  have hw' : (begun s).cfg.wf = true := by rwa [begun_cfg]
  rw [step_of_reset hw hr]
  cases hs : (nextInput s).skipIn with
  | true =>
    rw [resetStep_of_skip (s := begun s) hw' hs]
    exact ⟨_, rfl, fun _ => ⟨rfl, rfl, rfl, rfl, rfl⟩, nofun⟩
  | false =>
    rw [resetStep_of_no_skip (s := begun s) hs]
    exact ⟨_, rfl, nofun, fun _ => ⟨rfl, rfl, rfl, rfl, by rw [← begun_cfg s]; rfl, rfl⟩⟩

/-! ## Which rule a step is -/

theorem step_of_waitSignal (ho : Ordinary s) (hb : s.boot.bootState = .waitSignal) :
    step s = waitSignalStep (begun s) := by
  rw [step_of_ordinary ho, controllerStep, begun_boot, hb]

theorem step_of_errorHang (ho : Ordinary s) (hb : s.boot.bootState = .errorHang) :
    step s = .next (errorHangStep (begun s)) := by
  rw [step_of_ordinary ho, controllerStep, begun_boot, hb]

theorem step_of_runApplication (ho : Ordinary s) (hb : s.boot.bootState = .runApplication) :
    step s = .next (begun s) := by
  rw [step_of_ordinary ho, controllerStep, begun_boot, hb]

/-- Settles O60: RUN_APPLICATION has no rule, and ERROR_HANG has that of its blink. -/
theorem terminalStates : Obligations.TerminalStates := by
  intro s ho
  refine ⟨step_of_runApplication ho, fun hb => ?_⟩
  rw [step_of_errorHang ho hb, ← begun_boot s, ← begun_cfg s]
  rfl

/-! ## The transitions of `boot_state` -/

/-- A completed frame leaves `boot_state`, or enters ERROR_HANG with `dec_ok` = 0 (43_boot_controller.md R308). -/
theorem frameComplete_bootState (s : State) :
    (frameComplete s).boot.bootState = s.boot.bootState ∨
      ((frameComplete s).boot.bootState = .errorHang ∧ s.dec.ok = false) := by
  unfold frameComplete
  simp only
  split
  · exact .inl rfl
  · next hok => exact .inr ⟨rfl, eq_false_of_ne_true hok⟩

theorem decoderStep_bootState (s : State) :
    (decoderStep s).boot.bootState = s.boot.bootState ∨
      ((decoderStep s).boot.bootState = .errorHang ∧ s.dec.ok = false) := by
  unfold decoderStep
  split
  next => exact .inl rfl
  next => unfold decSyncFirst; split <;> exact .inl rfl
  next => unfold decSyncMeas; simp only; split_ifs <;> exact .inl rfl
  next => unfold decStartSample; split_ifs <;> exact .inl rfl
  next => unfold decStartEdge; split <;> exact .inl rfl
  next => unfold decDataEdge; split <;> exact .inl rfl
  next =>
    unfold decDataSample
    simp only
    split_ifs
    · exact frameComplete_bootState _
    · exact .inl rfl
    · exact .inl rfl

/-- The programmer leaves the Boot Controller alone (42_flash_programmer.md R252 to R263). -/
theorem programmerStep_boot (h : programmerStep s = .next t) : t.boot = s.boot := by
  rcases programmerStep_next h with ⟨-, rfl⟩ | ⟨-, ht⟩ | ⟨-, ht⟩ | ⟨-, -, rfl⟩ | ⟨-, -, rfl⟩ | ⟨-, ht⟩ |
    ⟨-, -, -, rfl⟩ | ⟨-, -, -, rfl⟩ | ⟨-, ht⟩ | ⟨-, -, rfl⟩ | ⟨-, ht⟩
  · rfl
  · obtain ⟨-, -, -, rfl⟩ := fpRead_next.mp ht
    rfl
  · obtain ⟨-, -, -, -, -, rfl⟩ := fpErase_next.mp ht
    rfl
  · rfl
  · rfl
  · obtain ⟨-, -, -, rfl⟩ := fpFill_next.mp ht
    rw [captureVector_eq]
    rfl
  · rfl
  · rfl
  · obtain ⟨-, -, -, -, -, -, -, rfl⟩ := fpCommit_next.mp ht
    rfl
  · rfl
  · obtain ⟨-, rfl⟩ := fpRww_next.mp ht
    rfl

/-- A command goes on in LISTENING (41_dispatcher.md R211 to R217). -/
theorem exec_bootState {i : Instr} (h : exec i s = .next t) : t.boot.bootState = s.boot.bootState := by
  rcases exec_next h with rfl | ⟨f, -, rfl⟩ | rfl | ⟨f, ⟨⟩⟩ <;> rfl

theorem eeWriteStep_bootState (h : eeWriteStep s = .next t) :
    t.boot.bootState = s.boot.bootState ∨ (t.boot.bootState = .runApplication ∧ t.boot.appCause = .eeprom) := by
  unfold eeWriteStep at h
  split at h
  · cases h
    exact .inl rfl
  · obtain ⟨-, -, -, rfl⟩ := handoff_next.mp h
    exact .inr ⟨rfl, rfl⟩

theorem waitSignalStep_bootState (h : waitSignalStep s = .next t) :
    t.boot.bootState = s.boot.bootState ∨ t.boot.bootState = .listening ∨
      (t.boot.bootState = .runApplication ∧ t.boot.appCause = .timeout) := by
  rcases waitSignalStep_next h with ht | ⟨-, rfl | ⟨-, rfl⟩ | rfl⟩
  · obtain ⟨-, -, -, rfl⟩ := handoff_next.mp ht
    exact .inr (.inr ⟨rfl, rfl⟩)
  · exact .inr (.inl rfl)
  · exact .inl rfl
  · exact .inl rfl

/-- LISTENING is left by the hand-off after a restore or an EEPROM write, and by a frame with `dec_ok` = 0
(43_boot_controller.md R305, R308). -/
theorem listeningStep_bootState (h : listeningStep s = .next t) :
    t.boot.bootState = s.boot.bootState ∨
      (t.boot.bootState = .runApplication ∧ (t.boot.appCause = .run ∨ t.boot.appCause = .eeprom)) ∨
      (t.boot.bootState = .errorHang ∧ s.dec.ok = false) := by
  unfold listeningStep at h
  split at h
  next =>
    cases h
    exact (decoderStep_bootState s).imp_right .inr
  next =>
    split at h
    next => exact .inl (exec_bootState h)
    next => cases h
  next =>
    rcases progWaitStep_next h with ⟨-, rfl⟩ | ht
    · exact .inl rfl
    · exact .inl (by rw [programmerStep_boot ht])
  next =>
    rcases runWaitStep_next h with ⟨-, rfl⟩ | ht
    · exact .inr (.inl ⟨rfl, .inl rfl⟩)
    · exact .inl (by rw [programmerStep_boot ht])
  next =>
    rcases eeWriteStep_bootState h with hsame | ⟨hrun, hcause⟩
    · exact .inl hsame
    · exact .inr (.inl ⟨hrun, .inr hcause⟩)

theorem errorHangStep_bootState (s : State) : (errorHangStep s).boot.bootState = s.boot.bootState := by
  unfold errorHangStep
  split <;> rfl

/-- Settles O15: the transitions of the rule that is the step of each state. -/
theorem bootTransitions : Obligations.BootTransitions := by
  intro s t ho ht
  have hfront : (begun s).boot.bootState = s.boot.bootState := by rw [begun_boot]
  have hok : (begun s).dec.ok = s.dec.ok := by rw [begun_dec]
  cases hb : s.boot.bootState with
  | waitSignal =>
    rw [step_of_waitSignal ho hb] at ht
    simpa only [hfront, hb] using waitSignalStep_bootState ht
  | listening =>
    rw [step_of_listening ho hb] at ht
    simpa only [hfront, hok, hb] using listeningStep_bootState ht
  | errorHang =>
    rw [step_of_errorHang ho hb] at ht
    cases ht
    rw [errorHangStep_bootState, hfront, hb]
  | runApplication =>
    rw [step_of_runApplication ho hb] at ht
    cases ht
    rw [hfront, hb]

end Sys2Proof.Machine
end

section
/-! WAIT_SIGNAL (43_boot_controller.md R301 to R304): its three kinds of step, and the run to the timeout. -/

namespace Sys2Proof.Machine

variable {s t : State} {b : Bool} {w : List Bool}

/-! ## The rule -/

theorem blinkTick_iff : blinkTick s = true ↔ s.boot.blinkCnt + 1 = s.cfg.blinkTicks := beq_iff_eq

theorem waitEdge_iff : waitEdge s = true ↔ s.env.inp.pinIn ≠ s.boot.waitRef := bne_iff_ne

/-- `wait_ref` is the level of the pin after every step, with or without an edge. -/
theorem waitSchedule_waitRef (s : State) : (waitSchedule s).boot.waitRef = s.env.inp.pinIn := by
  rw [waitSchedule_boot_waitRef]
  split
  · rfl
  · next he => exact (not_not.mp (mt waitEdge_iff.mpr he)).symm

/-- The blink cycle ends in this step and was the last one (43_boot_controller.md R301). -/
def TimesOut (s : State) : Prop := s.boot.blinkCnt + 1 = s.cfg.blinkTicks ∧ s.boot.timeoutLeft = 1

/-- The pin changes in this step for the third time (43_boot_controller.md R301). -/
def ThirdEdge (s : State) : Prop := s.env.inp.pinIn ≠ s.boot.waitRef ∧ s.boot.waitEdgesLeft = 1#2

/-- What WAIT_SIGNAL does when it goes on waiting (43_boot_controller.md R301). -/
def waitResult (s : State) : State :=
  { waitSchedule s with
    boot.waitEdgesLeft :=
      if s.env.inp.pinIn = s.boot.waitRef then s.boot.waitEdgesLeft else s.boot.waitEdgesLeft - 1#2 }

theorem waitSignalStep_of_timesOut (hw : s.cfg.wf = true) (hf : FetchLegal s) (hx : TimesOut s) :
    waitSignalStep s = .next (handoffResult .timeout (waitSchedule s)) := by
  rw [← handoff_of_fetchLegal (s := waitSchedule s) hw hf .timeout]
  exact if_pos (by simpa using ⟨blinkTick_iff.mpr hx.1, hx.2⟩)

/-- Before the timeout the rule looks at the edge. -/
theorem waitSignalStep_of_not_timesOut (hx : ¬ TimesOut s) :
    waitSignalStep s =
      if waitEdge s then
        if s.boot.waitEdgesLeft = 1#2 then .next (enterListening (waitSchedule s))
        else .next { waitSchedule s with boot.waitEdgesLeft := s.boot.waitEdgesLeft - 1#2 }
      else .next (waitSchedule s) := by
  refine if_neg fun h => hx ?_
  rw [Bool.and_eq_true, beq_iff_eq] at h
  exact ⟨blinkTick_iff.mp h.1, h.2⟩

theorem waitSignalStep_of_thirdEdge (hx : ¬ TimesOut s) (he : ThirdEdge s) :
    waitSignalStep s = .next (enterListening (waitSchedule s)) := by
  rw [waitSignalStep_of_not_timesOut hx, if_pos (waitEdge_iff.mpr he.1), if_pos he.2]

theorem waitSignalStep_of_waits (hx : ¬ TimesOut s) (he : ¬ ThirdEdge s) :
    waitSignalStep s = .next (waitResult s) := by
  rw [waitSignalStep_of_not_timesOut hx, waitResult]
  by_cases hpin : s.env.inp.pinIn = s.boot.waitRef
  · rw [if_neg (fun h => waitEdge_iff.mp h hpin), if_pos hpin]
    rfl
  · rw [if_pos (waitEdge_iff.mpr hpin), if_neg (fun h => he ⟨hpin, h⟩), if_neg hpin]

/-! ## What the three kinds of step write -/

/-- What the timeout does, while the decoder and the programmer are idle (43_boot_controller.md R301, R306). -/
def timeoutResult (s : State) : State :=
  { waitSchedule s with
    boot.bootState := .runApplication, boot.appCause := .timeout, boot.appEntry := slotValue s }

/-- The registers of the blink schedule and `wait_ref`, as every step of WAIT_SIGNAL writes them. -/
structure Scheduled (s t : State) : Prop where
  blinkCnt : t.boot.blinkCnt = (waitSchedule s).boot.blinkCnt
  led : t.boot.led = (waitSchedule s).boot.led
  timeoutLeft : t.boot.timeoutLeft = (waitSchedule s).boot.timeoutLeft
  waitRef : t.boot.waitRef = s.env.inp.pinIn

theorem scheduled_timeoutResult (s : State) : Scheduled s (timeoutResult s) := ⟨rfl, rfl, rfl, waitSchedule_waitRef s⟩

theorem scheduled_enterListening (s : State) : Scheduled s (enterListening (waitSchedule s)) :=
  ⟨rfl, rfl, rfl, waitSchedule_waitRef s⟩

theorem scheduled_waitResult (s : State) : Scheduled s (waitResult s) := ⟨rfl, rfl, rfl, waitSchedule_waitRef s⟩

/-- The last step of a blink cycle. -/
theorem Scheduled.cycle_ends (h : Scheduled (begun s) t) (hleft : 1 ≤ s.boot.timeoutLeft)
    (hc : s.boot.blinkCnt + 1 = s.cfg.blinkTicks) :
    t.boot.blinkCnt = 0 ∧ t.boot.led = (!s.boot.led) ∧ t.boot.timeoutLeft + 1 = s.boot.timeoutLeft := by
  have hc' : blinkTick (begun s) = true := blinkTick_iff.mpr (by rwa [begun_boot, begun_cfg])
  rw [h.blinkCnt, h.led, h.timeoutLeft]
  simp [hc', Nat.sub_add_cancel hleft]

/-- Every other step of a blink cycle. -/
theorem Scheduled.cycle_goes_on (h : Scheduled (begun s) t) (hc : s.boot.blinkCnt + 1 ≠ s.cfg.blinkTicks) :
    t.boot.blinkCnt = s.boot.blinkCnt + 1 ∧ t.boot.led = s.boot.led ∧ t.boot.timeoutLeft = s.boot.timeoutLeft := by
  have hc' : ¬ blinkTick (begun s) = true := fun hb => hc (by rwa [blinkTick_iff, begun_boot, begun_cfg] at hb)
  rw [h.blinkCnt, h.led, h.timeoutLeft]
  simp [hc']

/-! ## The step -/

theorem timesOut_begun : TimesOut (begun s) ↔ s.boot.blinkCnt + 1 = s.cfg.blinkTicks ∧ s.boot.timeoutLeft = 1 := by
  rw [TimesOut, begun_boot, begun_cfg]

theorem thirdEdge_begun :
    ThirdEdge (begun s) ↔ (nextInput s).pinIn ≠ s.boot.waitRef ∧ s.boot.waitEdgesLeft = 1#2 := by
  rw [ThirdEdge, begun_boot]
  rfl

/-- In WAIT_SIGNAL the decoder and the programmer are idle, and so is the controller: the slot can be read. -/
theorem waitSignalStep_eq_timeoutResult (h : Inv s) (hb : s.boot.bootState = .waitSignal) (hx : TimesOut s) :
    waitSignalStep s = .next (timeoutResult s) := by
  have hd : s.dec.phase = .idle := h.dec_idle (by simp [Receiving, hb])
  have hp : s.fp.phase = .idle := h.fp_idle (by simp [hb])
  rw [waitSignalStep_of_timesOut h.cfg (h.flash_idle (.inl hp)).symm hx,
    handoffResult_of_idle (s := waitSchedule s) hd hp]
  rfl

theorem step_of_timesOut (h : Inv s) (ho : Ordinary s) (hb : s.boot.bootState = .waitSignal)
    (hx : TimesOut (begun s)) : step s = .next (timeoutResult (begun s)) := by
  rw [step_of_waitSignal ho hb, waitSignalStep_eq_timeoutResult (h.begun ho) (by rwa [begun_boot]) hx]

theorem step_of_thirdEdge (ho : Ordinary s) (hb : s.boot.bootState = .waitSignal) (hx : ¬ TimesOut (begun s))
    (he : ThirdEdge (begun s)) : step s = .next (enterListening (waitSchedule (begun s))) := by
  rw [step_of_waitSignal ho hb, waitSignalStep_of_thirdEdge hx he]

theorem step_of_waits (ho : Ordinary s) (hb : s.boot.bootState = .waitSignal) (hx : ¬ TimesOut (begun s))
    (he : ¬ ThirdEdge (begun s)) : step s = .next (waitResult (begun s)) := by
  rw [step_of_waitSignal ho hb, waitSignalStep_of_waits hx he]

/-- Settles O58: the timeout, the third edge and neither of them are the three kinds of step, and each writes the
schedule. -/
theorem waitSignalStep_spec : Obligations.WaitSignalStep := by
  intro s h ho hb
  obtain ⟨hleft, -, -⟩ := h.waiting hb
  rw [← timesOut_begun, ← thirdEdge_begun]
  by_cases hx : TimesOut (begun s)
  case pos =>
    have hs := scheduled_timeoutResult (begun s)
    refine ⟨_, step_of_timesOut h ho hb hx, hs.cycle_ends hleft, hs.cycle_goes_on, hs.waitRef, fun _ => ?_,
      fun hn => absurd hx hn⟩
    rw [← slotValue_begun s]
    rfl
  case neg =>
    by_cases he : ThirdEdge (begun s)
    case pos =>
      have hs := scheduled_enterListening (begun s)
      exact ⟨_, step_of_thirdEdge ho hb hx he, hs.cycle_ends hleft, hs.cycle_goes_on, hs.waitRef,
        fun hn => absurd hn hx, fun _ => ⟨fun _ => rfl, fun hn => absurd he hn⟩⟩
    case neg =>
      have hs := scheduled_waitResult (begun s)
      refine ⟨_, step_of_waits ho hb hx he, hs.cycle_ends hleft, hs.cycle_goes_on, hs.waitRef,
        fun hn => absurd hn hx, fun _ => ⟨fun hn => absurd hn he, fun _ => ?_⟩⟩
      rw [← begun_boot s]
      rfl

/-! ## The run to the timeout (43_boot_controller.md R303) -/

/-- WAIT_SIGNAL in a calm environment with the levels `w` to come: they last to the end of the last blink cycle, and
bring fewer changes than are waited for. -/
structure Waiting (s : State) (w : List Bool) : Prop where
  inv : Inv s
  calm : CalmInputs s
  waiting : s.boot.bootState = .waitSignal
  pins : s.env.inputs.map (·.pinIn) = w
  left : s.boot.blinkCnt + w.length = s.boot.timeoutLeft * s.cfg.blinkTicks
  changes : levelChanges s.boot.waitRef w < s.boot.waitEdgesLeft.toNat

/-- A calm environment meets its duties while the programmer is idle. -/
theorem Waiting.ordinary (h : Waiting s (b :: w)) : Ordinary s := by
  obtain ⟨i, rest, hlist, hsample, -, -⟩ := sampleInputs_of_pins h.pins
  obtain ⟨hrst, hirq⟩ := h.calm i (by simp [hlist])
  have hfp : s.fp.phase = .idle := h.inv.fp_idle (by simp [h.waiting])
  simp [Ordinary, nextInput, hsample, stepRefusal, h.inv.cfg, hrst, hirq, hfp, inCriticalSpan]

/-- The last blink cycle does not end before the last level. -/
theorem Waiting.timesOut_iff (h : Waiting s (b :: w)) : TimesOut (begun s) ↔ w = [] := by
  obtain ⟨hpos, hblink, -⟩ := h.inv.waiting h.waiting
  have hleft := h.left
  rw [timesOut_begun, ← List.length_eq_zero_iff]
  rw [List.length_cons] at hleft
  constructor
  · rintro ⟨hc, h1⟩
    rw [h1] at hleft
    omega
  · intro h0
    have h1 : s.boot.timeoutLeft = 1 := by
      by_contra hne
      have : 2 * s.cfg.blinkTicks ≤ s.boot.timeoutLeft * s.cfg.blinkTicks := Nat.mul_le_mul_right _ (by omega)
      omega
    rw [h1] at hleft
    exact ⟨by omega, h1⟩

theorem levelChanges_cons (l b : Bool) (w : List Bool) :
    levelChanges l (b :: w) = (if b = l then 0 else 1) + levelChanges b w := rfl

/-- Fewer than the changes waited for are to come, so this one is not the third. -/
theorem Waiting.not_thirdEdge (h : Waiting s (b :: w)) : ¬ ThirdEdge (begun s) := by
  rw [thirdEdge_begun, nextInput_pinIn h.pins]
  rintro ⟨hpin, h1⟩
  have := h.changes
  rw [levelChanges_cons, if_neg hpin, h1] at this
  simp at this

/-- A change to come and a change waited for are counted off together. -/
theorem Waiting.changes_waitResult (h : Waiting s (b :: w)) :
    levelChanges b w < (waitResult (begun s)).boot.waitEdgesLeft.toNat := by
  have hpin : (begun s).env.inp.pinIn = b := nextInput_pinIn h.pins
  have hchanges := h.changes
  rw [levelChanges_cons] at hchanges
  simp only [waitResult, hpin, begun_boot]
  split_ifs at hchanges ⊢ with hb
  · omega
  · bv_omega

/-- A step counts off a level, and at the end of a blink cycle the cycle. -/
theorem Waiting.left_waitResult (h : Waiting s (b :: w)) :
    (waitResult (begun s)).boot.blinkCnt + w.length =
      (waitResult (begun s)).boot.timeoutLeft * (waitResult (begun s)).cfg.blinkTicks := by
  obtain ⟨hpos, -, -⟩ := h.inv.waiting h.waiting
  have hs := scheduled_waitResult (begun s)
  have hleft := h.left
  have hcfg : (waitResult (begun s)).cfg = s.cfg := begun_cfg s
  rw [List.length_cons] at hleft
  rw [hcfg]
  by_cases hc : s.boot.blinkCnt + 1 = s.cfg.blinkTicks
  · obtain ⟨hcnt, -, htime⟩ := hs.cycle_ends hpos hc
    rw [← htime, Nat.add_one_mul] at hleft
    omega
  · obtain ⟨hcnt, -, htime⟩ := hs.cycle_goes_on hc
    rw [hcnt, htime]
    omega

/-- Before the last level the block goes on waiting. -/
theorem Waiting.step_waits (h : Waiting s (b :: w)) (hw : w ≠ []) :
    step s = .next (waitResult (begun s)) ∧ Waiting (waitResult (begun s)) w := by
  have hstep := step_of_waits h.ordinary h.waiting (mt h.timesOut_iff.mp hw) h.not_thirdEdge
  refine ⟨hstep,
    { inv := stepKeepsInv _ _ h.inv hstep
      calm := h.calm.begun
      waiting := by rw [← h.waiting, ← begun_boot s]; rfl
      pins := pins_begun h.pins
      left := h.left_waitResult
      changes := ?_ }⟩
  rw [(scheduled_waitResult _).waitRef, tick_sample_inp, nextInput_pinIn h.pins]
  exact h.changes_waitResult

/-- `t` is the end of the wait that `s` is in: the timeout hand-off, with nothing written. -/
structure TimeoutEnd (s t : State) : Prop where
  bootState : t.boot.bootState = .runApplication
  appCause : t.boot.appCause = .timeout
  appEntry : t.boot.appEntry = slotValue s
  flash : t.fc.flash = s.fc.flash
  frame : t.frame = s.frame
  sev : t.sev = s.sev
  eeLog : t.eeLog = s.eeLog

theorem timeoutEnd_timeoutResult (s : State) : TimeoutEnd s (timeoutResult s) := ⟨rfl, rfl, rfl, rfl, rfl, rfl, rfl⟩

/-- The front of a step changes nothing that the end of the wait shows. -/
theorem TimeoutEnd.of_begun (h : TimeoutEnd (begun s) t) : TimeoutEnd s t :=
  { h with
    appEntry := h.appEntry.trans (slotValue_begun s)
    flash := by rw [h.flash, begun_fc]
    frame := by rw [h.frame, begun_frame]
    sev := by rw [h.sev, begun_sev]
    eeLog := by rw [h.eeLog, begun_eeLog] }

theorem TimeoutEnd.of_waitResult (h : TimeoutEnd (waitResult s) t) : TimeoutEnd s t := { h with }

theorem runSteps_succ (m : Nat) (h : step s = .next t) : runSteps (m + 1) s = runSteps m t := by
  rw [runSteps, h, andThen]

/-- One step for each level, the last of them the hand-off. -/
theorem Waiting.run (h : Waiting s (b :: w)) :
    (∀ m, m < w.length + 1 → ∃ u, runSteps m s = .next u ∧ u.boot.bootState = .waitSignal) ∧
    ∃ t, runSteps (w.length + 1) s = .next t ∧ TimeoutEnd s t := by
  induction w generalizing s b with
  | nil =>
    refine ⟨fun m hm => ⟨s, ?_, h.waiting⟩, _, runSteps_succ 0 ?_, (timeoutEnd_timeoutResult _).of_begun⟩
    · obtain rfl : m = 0 := by simpa using hm
      rfl
    · exact step_of_timesOut h.inv h.ordinary h.waiting (h.timesOut_iff.mpr rfl)
  | cons b' w ih =>
    obtain ⟨hstep, hnext⟩ := h.step_waits (List.cons_ne_nil _ _)
    obtain ⟨hwaits, t, hrun, hend⟩ := ih hnext
    refine ⟨fun m hm => ?_, t, (runSteps_succ _ hstep).trans hrun, hend.of_waitResult.of_begun⟩
    cases m with
    | zero => exact ⟨s, rfl, h.waiting⟩
    | succ m =>
      rw [runSteps_succ m hstep]
      exact hwaits m (Nat.lt_of_succ_lt_succ hm)

/-- Settles O59: the inputs last exactly to the end of the last blink cycle, and three changes are waited for. -/
theorem timeoutRun : Obligations.TimeoutRun := by
  intro s h hc hb he ht hcnt hlen hchanges
  obtain ⟨b, w, hpins⟩ : ∃ b w, s.env.inputs.map (·.pinIn) = b :: w := by
    obtain ⟨-, -, -, -, -, -, -, hto, hblink, -⟩ := Config.wf_iff.mp h.cfg
    have : 0 < s.cfg.bootTimeout * s.cfg.blinkTicks := Nat.mul_pos hto hblink
    exact List.exists_cons_of_length_pos (by rwa [List.length_map, hlen])
  have hsteps : w.length + 1 = s.cfg.bootTimeout * s.cfg.blinkTicks := by
    simpa [hlen] using (congrArg List.length hpins).symm
  rw [hpins] at hchanges
  obtain ⟨hwaits, t, hrun, hend⟩ := Waiting.run (s := s) (b := b) (w := w)
    { inv := h
      calm := hc
      waiting := hb
      pins := hpins
      left := by rw [hcnt, ht, ← hsteps, List.length_cons, Nat.zero_add]
      changes := by rw [he]; exact hchanges }
  rw [hsteps] at hwaits hrun
  obtain ⟨hstate, hcause, hentry, hflash, hframe, hsev, hlog⟩ := hend
  exact ⟨hwaits, t, hrun, hstate, hcause, hentry, hflash, hframe, hsev, hlog⟩

end Sys2Proof.Machine
end

section
/-! Progress (60_exceptions.md R340; 10_state.md R36): under the invariant an ordinary step answers a next state, or the
programmer issues an operation whose drawn latency lies out of its range, and the step is refused for that. No rule
reaches a fault. -/

namespace Sys2Proof.Machine

variable {s : State}

/-! ## Every rule answers -/

/-- In WAIT_SIGNAL the timeout, the third edge and neither of them all answer (43_boot_controller.md R301). -/
theorem Inv.progress_waitSignal (h : Inv s) (ho : Ordinary s) (hb : s.boot.bootState = .waitSignal) :
    ∃ t, step s = .next t := by
  by_cases hx : TimesOut (Machine.begun s)
  · exact ⟨_, step_of_timesOut h ho hb hx⟩
  by_cases he : ThirdEdge (Machine.begun s)
  · exact ⟨_, step_of_thirdEdge ho hb hx he⟩
  · exact ⟨_, step_of_waits ho hb hx he⟩

/-- Every command answers: RUN's block is the slot, which lies inside its page (42_flash_programmer.md R265). -/
theorem exec_progress (hw : s.cfg.wf = true) (i : Instr) : ∃ t, exec i s = .next t := by
  cases i with
  | program f =>
    simp only [exec, execProgram]
    split <;> exact ⟨_, rfl⟩
  | run f =>
    obtain ⟨t, ht, -⟩ := runCommand s f hw
    exact ⟨t, ht⟩
  | _ => exact ⟨_, rfl⟩

/-- The frame buffer always holds a frame (30_encoding.md R137), and its command answers. -/
theorem Inv.progress_dispatch (h : Inv s) (ho : Ordinary s) (hb : s.boot.bootState = .listening)
    (hl : s.boot.lstPhase = .dispatch) : ∃ t, step s = .next t := by
  obtain ⟨i, hi⟩ := decode_of_length (Memory.length_readList s.frame 0 s.cfg.frameSize)
  rw [stepRunsDecoded s i ho hb hl hi]
  exact exec_progress (h.begun ho).cfg i

/-- EE_WRITE has a byte left to write, or hands off (41_dispatcher.md R220). -/
theorem Inv.progress_eeWrite (h : Inv s) (ho : Ordinary s) (hb : s.boot.bootState = .listening)
    (hl : s.boot.lstPhase = .eeWrite) : ∃ t, step s = .next t := by
  rcases lt_or_ge s.ee.i.toNat s.ee.n.toNat with hi | hi
  · exact ⟨_, step_of_eeWrite_lt ho hb hl hi⟩
  · exact ⟨_, step_of_eeWrite_le h ho hb hl hi⟩

/-- A wait phase goes on waiting or moves on (42_flash_programmer.md R253, R257, R259). -/
theorem Inv.progress_waits (h : Inv s) (ho : Ordinary s) (hp : waitsForFlash s.fp.phase = true) :
    ∃ t, step s = .next t := by
  obtain ⟨hbusy, herased, hlast, hmore, hcommitted⟩ := waitPhases s h ho
  by_cases hb : nextBusy s
  · exact ⟨_, hbusy hp hb⟩
  cases hph : s.fp.phase with
  | eraseWait => exact ⟨_, herased hph hb⟩
  | fillWait =>
    by_cases hi : s.fp.idx + 1 = s.cfg.pageWords
    · exact ⟨_, hlast hph hb hi⟩
    · exact ⟨_, hmore hph hb hi⟩
  | commitWait => exact ⟨_, hcommitted hph hb⟩
  | _ => simp [hph, waitsForFlash] at hp

/-- A finished sequence ends the dispatch or hands off (41_dispatcher.md R218, R219). -/
theorem Inv.progress_done (h : Inv s) (ho : Ordinary s) (hp : s.fp.phase = .done) : ∃ t, step s = .next t := by
  obtain ⟨hb, hl | hl⟩ := h.programming.mp (by simp [hp])
  · exact ⟨_, (progWait s ho hb hl).2 hp⟩
  · exact ⟨_, (runWait s h ho hb hl).2 hp⟩

/-- Each phase of a sequence answers (42_flash_programmer.md R252 to R263). -/
theorem Inv.progress_programmer (h : Inv s) (ho : Ordinary s) (hlat : LatencyOk s) (hi : s.fp.phase ≠ .idle) :
    ∃ t, step s = .next t := by
  obtain ⟨herase, hfill, hcommit⟩ := hlat
  cases hp : s.fp.phase with
  | idle => exact absurd hp hi
  | read => exact (readAndMerge s h ho hp).imp fun _ ht => ht.1
  | erase => exact (eraseStep s h ho hp (herase hp).1 (herase hp).2).imp fun _ ht => ht.1
  | fill => exact (fillStep s h ho hp (hfill hp) _ _ rfl rfl).imp fun _ ht => ht.1
  | commit => exact (commitStep s h ho hp (hcommit hp).1 (hcommit hp).2).imp fun _ ht => ht.1
  | rww => exact ⟨_, rwwStep s h ho hp⟩
  | done => exact h.progress_done ho hp
  | eraseWait | fillWait | commitWait => exact h.progress_waits ho (by rw [hp]; rfl)

/-- In every state of the Boot Controller but ERROR_HANG, which the invariant excludes, the step answers. -/
theorem Inv.progress (h : Inv s) (ho : Ordinary s) (hlat : LatencyOk s) : ∃ t, step s = .next t := by
  cases hb : s.boot.bootState with
  | waitSignal => exact h.progress_waitSignal ho hb
  | runApplication => exact ⟨_, step_of_runApplication ho hb⟩
  | errorHang => exact absurd hb h.noHang
  | listening =>
    cases hl : s.boot.lstPhase with
    | rx => exact ⟨_, step_of_receiving ho ⟨hb, hl⟩⟩
    | dispatch => exact h.progress_dispatch ho hb hl
    | eeWrite => exact h.progress_eeWrite ho hb hl
    | progWait => exact h.progress_programmer ho hlat (h.programming.mpr ⟨hb, .inl hl⟩)
    | runWait => exact h.progress_programmer ho hlat (h.programming.mpr ⟨hb, .inr hl⟩)

/-! ## A latency out of range is refused -/

theorem fcErase_of_latency {p : Nat} (hb : s.fc.busyLeft = 0) (ha : p % s.cfg.pageSize = 0)
    (hin : p < s.cfg.flashSize) (hlat : ¬ (1 ≤ s.env.inp.fcLat ∧ s.env.inp.fcLat ≤ s.cfg.maxErase)) :
    fcErase p s = .refused (.latencyOutOfRange (.erase p) s.env.inp.fcLat) := by
  have hout : s.env.inp.fcLat < 1 ∨ s.cfg.maxErase < s.env.inp.fcLat := by omega
  simp only [fcErase, fcBusy_eq_false.mpr hb, ha, hin.not_ge, hout, if_true, if_false, ne_eq, not_true_eq_false,
    Bool.false_eq_true]

theorem fcFill_of_latency {off : Nat} {w : Word} (hb : s.fc.busyLeft = 0) (ha : off % 2 = 0)
    (hin : off < s.cfg.pageSize) (hlat : s.cfg.maxFill < s.env.inp.fcLat) :
    fcFill off w s = .refused (.latencyOutOfRange (.fill off w) s.env.inp.fcLat) := by
  simp only [fcFill, fcBusy_eq_false.mpr hb, ha, hin.not_ge, hlat, if_true, if_false, ne_eq, not_true_eq_false,
    Bool.false_eq_true]

theorem fcCommit_of_latency {p : Nat} (hb : s.fc.busyLeft = 0) (ha : p % s.cfg.pageSize = 0)
    (hin : p < s.cfg.flashSize) (he : s.fc.erased = some p) (hf : pageFilled s = true)
    (hlat : ¬ (1 ≤ s.env.inp.fcLat ∧ s.env.inp.fcLat ≤ s.cfg.maxWrite)) :
    fcCommit p s = .refused (.latencyOutOfRange (.commit p) s.env.inp.fcLat) := by
  have hout : s.env.inp.fcLat < 1 ∨ s.cfg.maxWrite < s.env.inp.fcLat := by omega
  simp only [fcCommit, fcBusy_eq_false.mpr hb, ha, hin.not_ge, he, hf, hout, if_true, if_false, ne_eq,
    not_true_eq_false, Bool.false_eq_true, reduceCtorEq, or_self]

/-! Under the invariant ERASE, FILL and COMMIT pass every guard before that of the latency. -/

theorem Inv.fpErase_of_latency (h : Inv s) (hp : s.fp.phase = .erase)
    (hlat : ¬ (1 ≤ s.env.inp.fcLat ∧ s.env.inp.fcLat ≤ s.cfg.maxErase)) :
    ∃ op, Machine.fpErase s = .refused (.latencyOutOfRange op s.env.inp.fcLat) := by
  obtain ⟨haligned, hin⟩ := h.page_operand (by simp [hp])
  rw [Machine.fpErase, fcErase_of_latency (h.busy (by rw [hp]; rfl)) haligned hin hlat]
  exact ⟨_, rfl⟩

theorem Inv.fpFill_of_latency (h : Inv s) (hp : s.fp.phase = .fill) (hlat : ¬ s.env.inp.fcLat ≤ s.cfg.maxFill) :
    ∃ op, Machine.fpFill s = .refused (.latencyOutOfRange op s.env.inp.fcLat) := by
  obtain ⟨hsize, -⟩ := pageSize_eq h.cfg
  have hidx := h.filling (.inl hp)
  have hoff : 2 * s.fp.idx < s.cfg.pageSize := by omega
  have hfill : fcFill (2 * s.fp.idx) (fillWord s) (captureVector s) =
      .refused (.latencyOutOfRange (.fill (2 * s.fp.idx) (fillWord s)) s.env.inp.fcLat) := by
    rw [captureVector_eq]
    exact fcFill_of_latency (h.busy (by rw [hp]; rfl)) (Nat.mul_mod_right 2 _) hoff (not_le.mp hlat)
  rw [Machine.fpFill, hfill]
  exact ⟨_, rfl⟩

theorem Inv.fpCommit_of_latency (h : Inv s) (hp : s.fp.phase = .commit)
    (hlat : ¬ (1 ≤ s.env.inp.fcLat ∧ s.env.inp.fcLat ≤ s.cfg.maxWrite)) :
    ∃ op, Machine.fpCommit s = .refused (.latencyOutOfRange op s.env.inp.fcLat) := by
  obtain ⟨haligned, hin⟩ := h.page_operand (by simp [hp])
  obtain ⟨-, -, hfilled⟩ := h.filled
  rw [Machine.fpCommit, fcCommit_of_latency (h.busy (by rw [hp]; rfl)) haligned hin (h.erased (by rw [hp]; rfl))
    (pageFilled_eq_true.mpr (hfilled hp)) hlat]
  exact ⟨_, rfl⟩

/-- An ordinary step whose drawn latency is out of range is refused for it (10_state.md R36). -/
theorem Inv.step_of_not_latencyOk (h : Inv s) (ho : Ordinary s) (hlat : ¬ LatencyOk s) :
    ∃ op, step s = .refused (.latencyOutOfRange op (nextInput s).fcLat) := by
  have hb := h.begun ho
  rw [LatencyOk, not_and_or, not_and_or, Classical.not_imp, Classical.not_imp, Classical.not_imp] at hlat
  rcases hlat with ⟨hp, hl⟩ | ⟨hp, hl⟩ | ⟨hp, hl⟩
  all_goals
    rw [h.step_programmer ho hp, Machine.programmerStep, begun_fp, hp]
    rw [← begun_cfg s] at hl
    rw [← begun_fp s] at hp
  · exact hb.fpErase_of_latency hp hl
  · exact hb.fpFill_of_latency hp hl
  · exact hb.fpCommit_of_latency hp hl

/-! ## No fault -/

theorem resetStep_progress (hw : s.cfg.wf = true) : ∃ t, resetStep s = .next t := by
  cases hs : s.env.inp.skipIn with
  | true => exact ⟨_, resetStep_of_skip hw hs⟩
  | false => exact ⟨_, resetStep_of_no_skip hs⟩

/-- A reset step answers; any other is refused by its front, answers, or is refused for its latency. -/
theorem Inv.step_ne_fault (h : Inv s) (e : Fault) : step s ≠ .fault e := by
  cases hrst : (nextInput s).rst with
  | true =>
    obtain ⟨t, ht⟩ := resetStep_progress (s := Machine.begun s) (by rw [begun_cfg]; exact h.cfg)
    rw [step_of_reset h.cfg hrst, ht]
    nofun
  | false =>
    cases hfront : stepRefusal (Machine.sampleInputs s) with
    | some r =>
      rw [step_of_stepRefusal hfront]
      nofun
    | none =>
      by_cases hlat : LatencyOk s
      · obtain ⟨t, ht⟩ := h.progress ⟨hfront, hrst⟩ hlat
        rw [ht]
        nofun
      · obtain ⟨op, hop⟩ := h.step_of_not_latencyOk ⟨hfront, hrst⟩ hlat
        rw [hop]
        nofun

/-- Settles O56: a rule of an ordinary step answers, or its operation's latency is out of range and it is refused. -/
theorem noFaultAndProgress : Obligations.NoFaultAndProgress :=
  fun _ h => ⟨h.step_ne_fault, h.progress⟩

end Sys2Proof.Machine
end

section
/-! The values of the reset table (70_reset_and_hazards.md R380): at `State.reset`, with the invariant there, and after
a reset step from any state. -/

namespace Sys2Proof.Machine

variable {s t : State}

/-! ## `State.reset` -/

/-- Settles O7: `State.reset` carries each value of the reset table. -/
theorem resetState : Obligations.ResetState :=
  ⟨rfl, rfl, rfl, rfl, rfl, rfl, rfl, rfl, rfl, rfl, rfl, rfl, rfl, rfl, rfl, rfl⟩

theorem Memory.ok_nil (n : Nat) : MemoryOk n [] :=
  ⟨Memory.wf_nil, nofun⟩

theorem arrays_reset : Arrays State.reset where
  flash := Memory.ok_nil _
  pb := Memory.ok_nil _
  frame := Memory.ok_nil _
  m := Memory.ok_nil _
  blk := Memory.ok_nil _

/-- Settles O8: the configuration is EX4, the registers start inside their ranges, the arrays are empty, and the decoder,
the programmer and the flash controller are idle. -/
theorem invAtReset : Obligations.InvAtReset :=
  .of_clauses
    { cfg := by decide
      ranges := by constructor <;> decide
      arrays := arrays_reset
      decOk := rfl
      noHang := nofun
      waiting := fun _ => by decide
      decoding := by decide }
    (.of_unmeasured (.inl rfl)) (.of_idle rfl nofun) (.of_unmasked rfl rfl rfl)

/-! ## The reset step -/

/-- A reset step ends with the reset's registers, handed off where it skips (43_boot_controller.md R300). -/
theorem resetStep_next (h : resetStep s = .next t) :
    t = handoffResult .skip (resetRegisters s) ∨ t = resetRegisters s := by
  unfold resetStep at h
  split at h
  · obtain ⟨-, -, -, rfl⟩ := handoff_next.mp h
    exact .inl rfl
  · cases h
    exact .inr rfl

/-- A step with `rst` = 1 that answers is the reset step (60_exceptions.md R346). -/
theorem resetStep_of_step (hrst : (nextInput s).rst = true) (ht : step s = .next t) :
    resetStep (begun s) = .next t := by
  obtain ⟨-, ⟨-, hr⟩ | ⟨hno, -⟩⟩ := step_next.mp ht
  · exact hr
  · simp [hrst] at hno

/-- `cpu_ie` after a reset is the value its input gives it, if it gives one (log entry 9). -/
theorem resetRegisters_cpuIe {b : Bool} (h : s.env.inp.cpuIe = some b) : (resetRegisters s).cpuIe = b := by
  simp [resetRegisters, h]

/-- Settles O10: the hand-off of a skip writes none of these registers but the two phases, which it leaves idle. -/
theorem resetStepValues : Obligations.ResetStepValues := by
  intro s t hrst ht
  rw [← begun_cfg s]
  have hcpu : ∀ b, (nextInput s).cpuIe = some b → (resetRegisters (begun s)).cpuIe = b :=
    fun _ => resetRegisters_cpuIe (s := begun s)
  rcases resetStep_next (resetStep_of_step hrst ht) with rfl | rfl
  · exact ⟨rfl, rfl, rfl, rfl, rfl, rfl, rfl, rfl, rfl, rfl, rfl, hcpu⟩
  · exact ⟨rfl, rfl, rfl, rfl, rfl, rfl, rfl, rfl, rfl, rfl, rfl, hcpu⟩

end Sys2Proof.Machine
end
